-- ==== Sys2Proof/Word.lean ====
section
/-! DEFINITION. The byte, the 32-bit word of the register window, and the fixed-size stores built from
bytes (spec/00_scope.md R13, R15; spec/10_state.md R22). -/

namespace Sys2Proof

/-- An 8-bit unsigned value (R13). -/
abbrev Byte := BitVec 8

/-- One 32-bit word of the register window (R10, R13). -/
abbrev Word := BitVec 32

/-- Four bytes, one for each row 0..3: a state column, a key-schedule word, or the row masks of a domain. -/
abbrev Quad := Vector Byte 4

/-- Sixteen bytes, byte 0 first: a key, a block, a state or a round-key block (R13, R15). -/
abbrev Block := Vector Byte 16

/-- Ten mask bytes `v[0..9]` (R31, R32). -/
abbrev MaskVec := Vector Byte 10

/-- A 256-entry byte table (R33). -/
abbrev SubTable := Vector Byte 256

/-- The eleven 16-byte blocks of a round-key table (R29, R30). -/
abbrev KeyTable := Vector Block 11

/-- The vector whose entry `i` is `f i`. -/
def tabulate {α : Type} {n : Nat} (f : Fin n → α) : Vector α n := ⟨⟨List.ofFn f⟩, by simp⟩

/-- The 16-byte value with every byte zero. -/
def zeroBlock : Block := Vector.replicate 16 0

end Sys2Proof
end

