-- ==== Sys2Proof/Config.lean ====
section
/-! DEFINITION. The parameters of the core: what the source fixes (spec/00_scope.md R9), and the open
parameters `BASE` (R11) and, for a mask source outside the spec, `MaskSource` (R12). -/

namespace Sys2Proof.Config

/-- Nr, the number of rounds (R9). -/
def rounds : Nat := 10

/-- The decoy constant 0xA5 (R9). -/
def decoy : Byte := 0xA5

/-- `BASE`, the window's base address in the host's address space (R11): an open parameter, so it has no
value here. -/
opaque base : Nat

/-- `seed` of a mask source the spec does not describe (R12): an open parameter. Its states are numbered by
natural numbers (log entry 3). -/
opaque externalSeed : Block → Nat

/-- `draw` of that mask source (R12): an open parameter. -/
opaque externalDraw : Nat → Byte × Nat

end Sys2Proof.Config
end

