-- ==== Sys2Proof/Syntax.lean ====
section
/-! DEFINITION. What the core executes: the CTRL command words, the host transactions and the engine's phase
codes of spec/opcode_table.json, one constructor of `Instr` for each row (spec/30_encoding.md R70-R78). -/

namespace Sys2Proof

/-- The registers of the window, by the register map of spec/20_memory.md R51. Register numbers are already
taken out of the offset: `key k` is KEYk and `data k` is DATAk. -/
inductive Reg where
  | ctrl
  | status
  | reservedLow (k : Fin 2)
  | key (k : Fin 4)
  | data (k : Fin 4)
  | reservedHigh (k : Fin 4)
deriving DecidableEq, Repr

/-- One access the host asks for. `record` is the 40-bit record of R75. `bus` is an access as a bus carries
it: a direction, an address in the host's address space, a width in bits and the write data (R11, R55), which
also spells the accesses no record can. -/
inductive HostAccess where
  | record (r : BitVec 40)
  | bus (write : Bool) (addr : Nat) (width : Nat) (val : Word)
deriving DecidableEq, Repr

/-- One constructor for each row of spec/opcode_table.json. -/
inductive Instr where
  -- format CTRL (R70-R74)
  /-- NOP: any word with CMD = 0b00; `hi` is CTRL[31:2]. -/
  | nop (hi : BitVec 30)
  /-- SET_KEY, the word 0x00000001. -/
  | setKey
  /-- ENCRYPT, the word 0x00000002. -/
  | encrypt
  /-- REJECT: every other word, `v`. -/
  | reject (v : Word)
  -- format TXN (R75); `v` is VAL, which a read carries and does not use (log entry 6)
  | wrCtrl (v : Word)
  | wrStatus (v : Word)
  | wrReservedLow (k : Fin 2) (v : Word)
  | wrKey (k : Fin 4) (v : Word)
  | wrData (k : Fin 4) (v : Word)
  | wrReservedHigh (k : Fin 4) (v : Word)
  | rdCtrl (v : Word)
  | rdStatus (v : Word)
  | rdReservedLow (k : Fin 2) (v : Word)
  | rdKey (k : Fin 4) (v : Word)
  | rdData (k : Fin 4) (v : Word)
  | rdReservedHigh (k : Fin 4) (v : Word)
  /-- UNADMITTED: an access that R55 does not admit. -/
  | unadmitted (a : HostAccess)
  -- format PHASE (R78)
  | idle
  | kexp
  | seed
  | genmask
  | buildSbox
  | rkFinal
  | ghostInit
  | rkMask
  | r0Remask
  | arkDecoy
  | subUniform
  | subDecoy
  | shift
  | remaskMc
  | mix
  | ark
  | ghostUnmask
  | ghostMix
  | finalArk
  | cleanup
  | reservedPhase14
  | reservedPhase15
  | reservedPhase16
  | reservedPhase17
  | reservedPhase18
  | reservedPhase19
  | reservedPhase1A
  | reservedPhase1B
  | reservedPhase1C
  | reservedPhase1D
  | reservedPhase1E
  | reservedPhase1F
deriving DecidableEq, Repr

end Sys2Proof
end

