-- ==== Sys2Proof/WellFormed.lean ====
section
/-! DEFINITION. Which terms of `Instr` stand for an encoding: the two catch-all rows REJECT and UNADMITTED
take only what the rows before them leave (spec/30_encoding.md, "match order"). Every other constructor's
fields are as wide as the encoding's, so each of its terms is well formed. -/

namespace Sys2Proof

/-- R74 and R189: REJECT takes a word that is no NOP (CMD ≠ 0b00) and neither 0x00000001 nor 0x00000002. -/
def rejectedWord (v : Word) : Bool :=
  v.extractLsb' 0 2 != 0 && v != 1 && v != 2

/-- R55 and R75: an access is admitted when it is 32 bits wide, its offset is a multiple of 4 and its offset
is in 0x00..0x3C. A record spells an admitted access when bit 39 is 0 and OFF[1:0] = 0. -/
def HostAccess.admitted : HostAccess → Bool
  | .record r => r.extractLsb' 39 1 == 0 && r.extractLsb' 32 2 == 0
  | .bus _ addr width _ =>
    width == 32 && decide (Config.base ≤ addr) && (addr - Config.base) % 4 == 0 &&
      decide (addr - Config.base ≤ 0x3C)

/-- The term stands for an encoding of its own row. -/
def Instr.wf : Instr → Bool
  | .reject v => rejectedWord v
  | .unadmitted a => !a.admitted
  | .nop _ | .setKey | .encrypt => true
  | .wrCtrl _ | .wrStatus _ | .wrReservedLow _ _ | .wrKey _ _ | .wrData _ _ | .wrReservedHigh _ _ => true
  | .rdCtrl _ | .rdStatus _ | .rdReservedLow _ _ | .rdKey _ _ | .rdData _ _ | .rdReservedHigh _ _ => true
  | .idle | .kexp | .seed | .genmask | .buildSbox | .rkFinal | .ghostInit | .rkMask | .r0Remask => true
  | .arkDecoy | .subUniform | .subDecoy | .shift | .remaskMc | .mix | .ark => true
  | .ghostUnmask | .ghostMix | .finalArk | .cleanup => true
  | .reservedPhase14 | .reservedPhase15 | .reservedPhase16 | .reservedPhase17 => true
  | .reservedPhase18 | .reservedPhase19 | .reservedPhase1A | .reservedPhase1B => true
  | .reservedPhase1C | .reservedPhase1D | .reservedPhase1E | .reservedPhase1F => true

end Sys2Proof
end

