-- ==== Sys2Proof/Decode.lean ====
section
/-! DEFINITION. Decoding and encoding, from the tables of spec/30_encoding.md (R70-R79) and the register map of
spec/20_memory.md R51. Decoding is total: a CTRL word is one of four commands, a host access is a register
access or is not admitted, and a phase code is a micro-operation or a reserved code. -/

namespace Sys2Proof

/-- The three formats of spec/opcode_table.json. -/
inductive Format where
  | ctrl
  | txn
  | phase
deriving DecidableEq, Repr

/-- What stands in one of the three formats: a command word written to CTRL, a host access, or a code of the
PHASE register. -/
inductive Code where
  | ctrl (v : Word)
  | txn (a : HostAccess)
  | phase (p : BitVec 5)
deriving DecidableEq, Repr

/-- One row of the opcode table: a word `w` matches when `w & mask = pattern`. -/
structure OpcodeRow where
  format : Format
  mnemonic : String
  pattern : Nat
  mask : Nat
deriving DecidableEq, Repr

/-! ### Phase codes (R78) -/

namespace Phase

abbrev idle : BitVec 5 := 0x00
abbrev kexp : BitVec 5 := 0x01
abbrev seed : BitVec 5 := 0x02
abbrev genmask : BitVec 5 := 0x03
abbrev buildSbox : BitVec 5 := 0x04
abbrev rkFinal : BitVec 5 := 0x05
abbrev ghostInit : BitVec 5 := 0x06
abbrev rkMask : BitVec 5 := 0x07
abbrev r0Remask : BitVec 5 := 0x08
abbrev arkDecoy : BitVec 5 := 0x09
abbrev subUniform : BitVec 5 := 0x0A
abbrev subDecoy : BitVec 5 := 0x0B
abbrev shift : BitVec 5 := 0x0C
abbrev remaskMc : BitVec 5 := 0x0D
abbrev mix : BitVec 5 := 0x0E
abbrev ark : BitVec 5 := 0x0F
abbrev ghostUnmask : BitVec 5 := 0x10
abbrev ghostMix : BitVec 5 := 0x11
abbrev finalArk : BitVec 5 := 0x12
abbrev cleanup : BitVec 5 := 0x13

end Phase

/-- The row that a PHASE code selects (R78). -/
def decodePhase (p : BitVec 5) : Instr :=
  match p.toNat with
  | 0 => .idle
  | 1 => .kexp
  | 2 => .seed
  | 3 => .genmask
  | 4 => .buildSbox
  | 5 => .rkFinal
  | 6 => .ghostInit
  | 7 => .rkMask
  | 8 => .r0Remask
  | 9 => .arkDecoy
  | 10 => .subUniform
  | 11 => .subDecoy
  | 12 => .shift
  | 13 => .remaskMc
  | 14 => .mix
  | 15 => .ark
  | 16 => .ghostUnmask
  | 17 => .ghostMix
  | 18 => .finalArk
  | 19 => .cleanup
  | 20 => .reservedPhase14
  | 21 => .reservedPhase15
  | 22 => .reservedPhase16
  | 23 => .reservedPhase17
  | 24 => .reservedPhase18
  | 25 => .reservedPhase19
  | 26 => .reservedPhase1A
  | 27 => .reservedPhase1B
  | 28 => .reservedPhase1C
  | 29 => .reservedPhase1D
  | 30 => .reservedPhase1E
  | _ => .reservedPhase1F

/-! ### The command word (R70, R74) -/

/-- CTRL[1:0] (R70). -/
def ctrlCmd (v : Word) : BitVec 2 := v.extractLsb' 0 2

/-- CTRL[3:2] (R70). -/
def ctrlKeylen (v : Word) : BitVec 2 := v.extractLsb' 2 2

/-- CTRL[31:4] (R70). -/
def ctrlRsvd (v : Word) : BitVec 28 := v.extractLsb' 4 28

/-- The first row of R74's map that the word matches. -/
def decodeCtrl (v : Word) : Instr :=
  if ctrlCmd v = 0 then .nop (v.extractLsb' 2 30)
  else if v = 0x00000001 then .setKey
  else if v = 0x00000002 then .encrypt
  else .reject v

/-! ### Host transactions (R51, R55, R75) -/

/-- The register at an offset of the window (R51); none when the offset is no multiple of 4. -/
def regAt (off : BitVec 6) : Option Reg :=
  match off.toNat with
  | 0x00 => some .ctrl
  | 0x04 => some .status
  | 0x08 => some (.reservedLow 0)
  | 0x0C => some (.reservedLow 1)
  | 0x10 => some (.key 0)
  | 0x14 => some (.key 1)
  | 0x18 => some (.key 2)
  | 0x1C => some (.key 3)
  | 0x20 => some (.data 0)
  | 0x24 => some (.data 1)
  | 0x28 => some (.data 2)
  | 0x2C => some (.data 3)
  | 0x30 => some (.reservedHigh 0)
  | 0x34 => some (.reservedHigh 1)
  | 0x38 => some (.reservedHigh 2)
  | 0x3C => some (.reservedHigh 3)
  | _ => none

/-- The offset of a register (R51). -/
def offsetOf : Reg → BitVec 6
  | .ctrl => 0x00
  | .status => 0x04
  | .reservedLow k => 0x08 + 4 * BitVec.ofNat 6 k.val
  | .key k => 0x10 + 4 * BitVec.ofNat 6 k.val
  | .data k => 0x20 + 4 * BitVec.ofNat 6 k.val
  | .reservedHigh k => 0x30 + 4 * BitVec.ofNat 6 k.val

/-- The 40-bit record with the four fields of R75. -/
def record (b39 w : BitVec 1) (off : BitVec 6) (val : Word) : BitVec 40 := b39 ++ w ++ off ++ val

/-- The transaction on a register: its direction, the register, and VAL. -/
def regInstr (write : Bool) (r : Reg) (val : Word) : Instr :=
  match write, r with
  | true, .ctrl => .wrCtrl val
  | true, .status => .wrStatus val
  | true, .reservedLow k => .wrReservedLow k val
  | true, .key k => .wrKey k val
  | true, .data k => .wrData k val
  | true, .reservedHigh k => .wrReservedHigh k val
  | false, .ctrl => .rdCtrl val
  | false, .status => .rdStatus val
  | false, .reservedLow k => .rdReservedLow k val
  | false, .key k => .rdKey k val
  | false, .data k => .rdData k val
  | false, .reservedHigh k => .rdReservedHigh k val

/-- The transaction a 40-bit record spells; UNADMITTED when bit 39 is set or OFF is no multiple of 4 (R75). -/
def decodeRecord (r : BitVec 40) : Instr :=
  if r.extractLsb' 39 1 = 0 then
    match regAt (r.extractLsb' 32 6) with
    | some reg => regInstr (r.extractLsb' 38 1 == 1) reg (r.extractLsb' 0 32)
    | none => .unadmitted (.record r)
  else .unadmitted (.record r)

/-- The register a bus access reaches, when R55 admits it: 32 bits wide, at `BASE + off` (R11) for an offset
`off` of the window that is a multiple of 4. -/
def busReg (addr width : Nat) : Option Reg :=
  if width = 32 ∧ Config.base ≤ addr ∧ addr - Config.base < 64 then regAt (BitVec.ofNat 6 (addr - Config.base))
  else none

/-- The transaction a host access is (R55, R75). -/
def decodeAccess : HostAccess → Instr
  | .record r => decodeRecord r
  | .bus write addr width val =>
    match busReg addr width with
    | some reg => regInstr write reg val
    | none => .unadmitted (.bus write addr width val)

/-- The instruction that a code of one of the three formats stands for. -/
def decode : Code → Instr
  | .ctrl v => decodeCtrl v
  | .txn a => decodeAccess a
  | .phase p => decodePhase p

/-! ### Whole words, numbered as spec/opcode_table.json numbers them -/

/-- Why a number is no word of a format. -/
inductive DecodeError where
  /-- The word is no 5-bit phase code: one of bits 7:5 of its byte is set (R78). -/
  | phaseTooWide
  /-- The word has bits above the width its format gives it (R79). -/
  | wordTooWide
  /-- No format is as long as the word (R79). -/
  | noSuchFormat
deriving DecidableEq, Repr

/-- The instruction of a word given by its length in bits, rounded up to bytes: 8 for PHASE codes (5 bits), 32
for CTRL words and 40 for TXN records (R78, R79). A length in between is a word of the next longer format
whose bits above it are zero. -/
def decodeWord (nbits w : Nat) : Except DecodeError Instr :=
  if nbits ≤ 8 then
    if w < 2 ^ 5 then .ok (decodePhase (BitVec.ofNat 5 w)) else .error .phaseTooWide
  else if nbits ≤ 32 then
    if w < 2 ^ 32 then .ok (decodeCtrl (BitVec.ofNat 32 w)) else .error .wordTooWide
  else if nbits ≤ 40 then
    if w < 2 ^ 40 then .ok (decodeRecord (BitVec.ofNat 40 w)) else .error .wordTooWide
  else .error .noSuchFormat

/-- What the decoder reads from a word of the opcode table. -/
def decodeTableWord (nbits w : Nat) : Option Instr :=
  match decodeWord nbits w with
  | .ok i => some i
  | .error _ => none

/-! ### Encoding -/

/-- The record of an admitted transaction (R75). -/
def encodeReg (write : Bool) (r : Reg) (val : Word) : Code :=
  .txn (.record (record 0 (if write then 1 else 0) (offsetOf r) val))

/-- The code of an instruction in its own format (R70-R78). -/
def encode : Instr → Code
  | .nop hi => .ctrl (hi ++ (0 : BitVec 2))
  | .setKey => .ctrl 0x00000001
  | .encrypt => .ctrl 0x00000002
  | .reject v => .ctrl v
  | .wrCtrl v => encodeReg true .ctrl v
  | .wrStatus v => encodeReg true .status v
  | .wrReservedLow k v => encodeReg true (.reservedLow k) v
  | .wrKey k v => encodeReg true (.key k) v
  | .wrData k v => encodeReg true (.data k) v
  | .wrReservedHigh k v => encodeReg true (.reservedHigh k) v
  | .rdCtrl v => encodeReg false .ctrl v
  | .rdStatus v => encodeReg false .status v
  | .rdReservedLow k v => encodeReg false (.reservedLow k) v
  | .rdKey k v => encodeReg false (.key k) v
  | .rdData k v => encodeReg false (.data k) v
  | .rdReservedHigh k v => encodeReg false (.reservedHigh k) v
  | .unadmitted a => .txn a
  | .idle => .phase 0x00
  | .kexp => .phase 0x01
  | .seed => .phase 0x02
  | .genmask => .phase 0x03
  | .buildSbox => .phase 0x04
  | .rkFinal => .phase 0x05
  | .ghostInit => .phase 0x06
  | .rkMask => .phase 0x07
  | .r0Remask => .phase 0x08
  | .arkDecoy => .phase 0x09
  | .subUniform => .phase 0x0A
  | .subDecoy => .phase 0x0B
  | .shift => .phase 0x0C
  | .remaskMc => .phase 0x0D
  | .mix => .phase 0x0E
  | .ark => .phase 0x0F
  | .ghostUnmask => .phase 0x10
  | .ghostMix => .phase 0x11
  | .finalArk => .phase 0x12
  | .cleanup => .phase 0x13
  | .reservedPhase14 => .phase 0x14
  | .reservedPhase15 => .phase 0x15
  | .reservedPhase16 => .phase 0x16
  | .reservedPhase17 => .phase 0x17
  | .reservedPhase18 => .phase 0x18
  | .reservedPhase19 => .phase 0x19
  | .reservedPhase1A => .phase 0x1A
  | .reservedPhase1B => .phase 0x1B
  | .reservedPhase1C => .phase 0x1C
  | .reservedPhase1D => .phase 0x1D
  | .reservedPhase1E => .phase 0x1E
  | .reservedPhase1F => .phase 0x1F

/-! ### The opcode table -/

/-- The row of spec/opcode_table.json that a constructor stands for: its format, mnemonic, match and mask. -/
def Instr.row : Instr → OpcodeRow
  | .nop _ => ⟨.ctrl, "NOP", 0x00000000, 0x00000003⟩
  | .setKey => ⟨.ctrl, "SET_KEY", 0x00000001, 0xFFFFFFFF⟩
  | .encrypt => ⟨.ctrl, "ENCRYPT", 0x00000002, 0xFFFFFFFF⟩
  | .reject _ => ⟨.ctrl, "REJECT", 0x00000000, 0x00000000⟩
  | .wrCtrl _ => ⟨.txn, "wr_CTRL", 0x4000000000, 0xFF00000000⟩
  | .wrStatus _ => ⟨.txn, "wr_STATUS", 0x4400000000, 0xFF00000000⟩
  | .wrReservedLow _ _ => ⟨.txn, "wr_reserved_0x08_0x0C", 0x4800000000, 0xFB00000000⟩
  | .wrKey _ _ => ⟨.txn, "wr_KEY0..KEY3", 0x5000000000, 0xF300000000⟩
  | .wrData _ _ => ⟨.txn, "wr_DATA0..DATA3", 0x6000000000, 0xF300000000⟩
  | .wrReservedHigh _ _ => ⟨.txn, "wr_reserved_0x30..0x3C", 0x7000000000, 0xF300000000⟩
  | .rdCtrl _ => ⟨.txn, "rd_CTRL", 0x0000000000, 0xFF00000000⟩
  | .rdStatus _ => ⟨.txn, "rd_STATUS", 0x0400000000, 0xFF00000000⟩
  | .rdReservedLow _ _ => ⟨.txn, "rd_reserved_0x08_0x0C", 0x0800000000, 0xFB00000000⟩
  | .rdKey _ _ => ⟨.txn, "rd_KEY0..KEY3", 0x1000000000, 0xF300000000⟩
  | .rdData _ _ => ⟨.txn, "rd_DATA0..DATA3", 0x2000000000, 0xF300000000⟩
  | .rdReservedHigh _ _ => ⟨.txn, "rd_reserved_0x30..0x3C", 0x3000000000, 0xF300000000⟩
  | .unadmitted _ => ⟨.txn, "UNADMITTED", 0x0000000000, 0x0000000000⟩
  | .idle => ⟨.phase, "IDLE", 0x00, 0x1F⟩
  | .kexp => ⟨.phase, "KEXP", 0x01, 0x1F⟩
  | .seed => ⟨.phase, "SEED", 0x02, 0x1F⟩
  | .genmask => ⟨.phase, "GENMASK", 0x03, 0x1F⟩
  | .buildSbox => ⟨.phase, "BUILD_SBOX", 0x04, 0x1F⟩
  | .rkFinal => ⟨.phase, "RK_FINAL", 0x05, 0x1F⟩
  | .ghostInit => ⟨.phase, "GHOST_INIT", 0x06, 0x1F⟩
  | .rkMask => ⟨.phase, "RK_MASK", 0x07, 0x1F⟩
  | .r0Remask => ⟨.phase, "R0_REMASK", 0x08, 0x1F⟩
  | .arkDecoy => ⟨.phase, "ARK_DECOY", 0x09, 0x1F⟩
  | .subUniform => ⟨.phase, "SUB_UNIFORM", 0x0A, 0x1F⟩
  | .subDecoy => ⟨.phase, "SUB_DECOY", 0x0B, 0x1F⟩
  | .shift => ⟨.phase, "SHIFT", 0x0C, 0x1F⟩
  | .remaskMc => ⟨.phase, "REMASK_MC", 0x0D, 0x1F⟩
  | .mix => ⟨.phase, "MIX", 0x0E, 0x1F⟩
  | .ark => ⟨.phase, "ARK", 0x0F, 0x1F⟩
  | .ghostUnmask => ⟨.phase, "GHOST_UNMASK", 0x10, 0x1F⟩
  | .ghostMix => ⟨.phase, "GHOST_MIX", 0x11, 0x1F⟩
  | .finalArk => ⟨.phase, "FINAL_ARK", 0x12, 0x1F⟩
  | .cleanup => ⟨.phase, "CLEANUP", 0x13, 0x1F⟩
  | .reservedPhase14 => ⟨.phase, "RESERVED_PHASE_0x14", 0x14, 0x1F⟩
  | .reservedPhase15 => ⟨.phase, "RESERVED_PHASE_0x15", 0x15, 0x1F⟩
  | .reservedPhase16 => ⟨.phase, "RESERVED_PHASE_0x16", 0x16, 0x1F⟩
  | .reservedPhase17 => ⟨.phase, "RESERVED_PHASE_0x17", 0x17, 0x1F⟩
  | .reservedPhase18 => ⟨.phase, "RESERVED_PHASE_0x18", 0x18, 0x1F⟩
  | .reservedPhase19 => ⟨.phase, "RESERVED_PHASE_0x19", 0x19, 0x1F⟩
  | .reservedPhase1A => ⟨.phase, "RESERVED_PHASE_0x1A", 0x1A, 0x1F⟩
  | .reservedPhase1B => ⟨.phase, "RESERVED_PHASE_0x1B", 0x1B, 0x1F⟩
  | .reservedPhase1C => ⟨.phase, "RESERVED_PHASE_0x1C", 0x1C, 0x1F⟩
  | .reservedPhase1D => ⟨.phase, "RESERVED_PHASE_0x1D", 0x1D, 0x1F⟩
  | .reservedPhase1E => ⟨.phase, "RESERVED_PHASE_0x1E", 0x1E, 0x1F⟩
  | .reservedPhase1F => ⟨.phase, "RESERVED_PHASE_0x1F", 0x1F, 0x1F⟩

/-- The rows of one format in match order, taken from instructions that stand for them. -/
def ctrlRows : List OpcodeRow := [(Instr.nop 0).row, Instr.setKey.row, Instr.encrypt.row, (Instr.reject 0).row]

/-- The TXN rows in match order; UNADMITTED is last. -/
def txnRows : List OpcodeRow :=
  [(Instr.wrCtrl 0).row, (Instr.wrStatus 0).row, (Instr.wrReservedLow 0 0).row, (Instr.wrKey 0 0).row,
   (Instr.wrData 0 0).row, (Instr.wrReservedHigh 0 0).row] ++
  [(Instr.rdCtrl 0).row, (Instr.rdStatus 0).row, (Instr.rdReservedLow 0 0).row, (Instr.rdKey 0 0).row,
   (Instr.rdData 0 0).row, (Instr.rdReservedHigh 0 0).row, (Instr.unadmitted (.record 0)).row]

/-- The word agrees with the row's match value on the bits of its mask. -/
def OpcodeRow.matchesWord (r : OpcodeRow) (w : Nat) : Bool := w &&& r.mask == r.pattern

/-- "the first row that matches decides" (spec/30_encoding.md). -/
def firstMatch (rows : List OpcodeRow) (w : Nat) : Option OpcodeRow := rows.find? (·.matchesWord w)

/-- The number a code's bits make; a bus access has no record and so no number. -/
def Code.number? : Code → Option Nat
  | .ctrl v => some v.toNat
  | .txn (.record r) => some r.toNat
  | .txn (.bus _ _ _ _) => none
  | .phase p => some p.toNat

end Sys2Proof
end

