-- ==== Sys2Proof/Machine/State.lean ====
section
/-! DEFINITION. The state of the core (spec/10_state.md R22), the mask source it is fitted with (R12), what the
host and the reset line hold ready for it, the reasons a step stops, and the state after reset
(spec/70_reset_and_hazards.md R220). -/

namespace Sys2Proof.Machine

/-- The mask source the core is fitted with (R12): the reference instance `lcgRef` (R122), a fixed list of bytes
that starts again when it runs out (spec/95_test_vectors.md, `ListSource`), or a source the spec does not
describe, given by the open parameters of `Config` (log entry 3). -/
inductive MaskSource where
  | lcgRef
  | listSource (first : Byte) (rest : List Byte)
  | external
deriving DecidableEq, Repr

/-- A generator state, the type `σ` of R12 for each mask source: the 32-bit state of `lcgRef` (R122), the list
and the number of bytes already drawn from it, or the number of an external state. -/
inductive GenState where
  | lcg (s : Word)
  | list (first : Byte) (rest : List Byte) (drawn : Nat)
  | external (n : Nat)
deriving DecidableEq, Repr

/-- Why the machine stops with a fault. -/
inductive Fault where
  /-- `ReservedPhase` (R78, R162): PHASE holds a reserved code 0x14..0x1F, or `Next` does not list the pair of
  PHASE and ROUND. Raised by the reserved PHASE rows and by every micro-operation that ends with `Next`. Safe: the
  spec says no run reaches it, and the model goes no further. -/
  | reservedPhase (phase : BitVec 5) (round : BitVec 4)
deriving DecidableEq, Repr

/-- Why an instruction is refused. -/
inductive Refusal where
  /-- Raised by an arm of `exec` whose instruction has no meaning yet. Safe: nothing runs. -/
  | notModelled (mnemonic : String)
  /-- `UnadmittedAccess(offset, width)` (R55): the host asked for an access that is not admitted. Raised by
  UNADMITTED. Safe: R55 gives such an access no step. -/
  | unadmittedAccess (offset : Int) (width : Nat)
deriving DecidableEq, Repr

/-- The state. The fields from `keyValid` to `round` are the stores of R22 under their names there. The last four
are not the core's stores: the mask source parameter, the host's transactions not yet performed (oldest first) and
the words its reads returned (oldest first), and the reset line (log entries 3, 4 and 5). -/
structure State where
  keyValid : Bool
  err : BitVec 2
  keyIn : Block
  data : Block
  k : Block
  rk : KeyTable
  rkm : KeyTable
  mask : MaskVec
  dm1 : MaskVec
  dm2 : MaskVec
  sm : SubTable
  ghost : Block
  gen : GenState
  phase : BitVec 5
  round : BitVec 4
  source : MaskSource
  pending : List HostAccess
  answers : List Word
  resets : List Nat
deriving DecidableEq, Repr

/-- The state after reset (R220, R22). The eight stores K, RK, RKM, MASK, DM1, DM2, SM and GEN have no value there
in the spec; the model gives them zero (log entry 1). The mask source is the default `lcgRef` (R12), nothing is
asked of the core and no reset is due. -/
def State.reset : State where
  keyValid := false
  err := 0
  keyIn := zeroBlock
  data := zeroBlock
  k := zeroBlock
  rk := Vector.replicate 11 zeroBlock
  rkm := Vector.replicate 11 zeroBlock
  mask := Vector.replicate 10 0
  dm1 := Vector.replicate 10 0
  dm2 := Vector.replicate 10 0
  sm := Vector.replicate 256 0
  ghost := zeroBlock
  gen := .lcg 0
  phase := Phase.idle
  round := 0
  source := .lcgRef
  pending := []
  answers := []
  resets := []

end Sys2Proof.Machine
end

