-- ==== Sys2Proof/Machine/Flags.lean ====
section
/-! DEFINITION. The core's flags: STATUS.KEY_VALID and STATUS.ERR (spec/10_state.md R23-R25, R42). No
micro-operation writes a flag but KEXP, and no other flag exists. -/

namespace Sys2Proof.Machine

/-- ERR codes (R25). -/
abbrev errOk : BitVec 2 := 0

/-- A CTRL write was rejected (R25, R200). -/
abbrev errInvalidInput : BitVec 2 := 1

/-- Defined and never set by this hardware (R25, R202). -/
abbrev errAllocationFailed : BitVec 2 := 2

/-- What a read of STATUS returns: `zext_32({ERR, KEY_VALID})` (R23). -/
def statusWord (s : State) : Word := (s.err ++ BitVec.ofBool s.keyValid).zeroExtend 32

end Sys2Proof.Machine
end

