-- ==== Sys2Proof/Machine/Gf.lean ====
section
/-! DEFINITION. The Galois-field tables and the AES transforms (spec/40_gf_tables.md): pure functions of bytes,
columns and states. -/

namespace Sys2Proof.Machine

/-- Multiplication by 2 in GF(2^8) (R90). -/
def xtime (a : Byte) : Byte := (a <<< 1) ^^^ (if a.getLsbD 7 then 0x1B else 0x00)

/-- The field product of `a` with the low `n` bits of `b`. -/
def gmulBits : Nat → Byte → Byte → Byte
  | 0, _, _ => 0
  | n + 1, a, b => (if b.getLsbD 0 then a else 0) ^^^ gmulBits n (xtime a) (b >>> 1)

/-- The field product `a • b` (R90). -/
def gmul (a b : Byte) : Byte := gmulBits 8 a b

/-- The contents of SBOX as R91 prints them. Row = high nibble, column = low nibble. -/
def sboxRows : List (List Byte) :=
  [[0x63, 0x7c, 0x77, 0x7b, 0xf2, 0x6b, 0x6f, 0xc5, 0x30, 0x01, 0x67, 0x2b, 0xfe, 0xd7, 0xab, 0x76],
   [0xca, 0x82, 0xc9, 0x7d, 0xfa, 0x59, 0x47, 0xf0, 0xad, 0xd4, 0xa2, 0xaf, 0x9c, 0xa4, 0x72, 0xc0],
   [0xb7, 0xfd, 0x93, 0x26, 0x36, 0x3f, 0xf7, 0xcc, 0x34, 0xa5, 0xe5, 0xf1, 0x71, 0xd8, 0x31, 0x15],
   [0x04, 0xc7, 0x23, 0xc3, 0x18, 0x96, 0x05, 0x9a, 0x07, 0x12, 0x80, 0xe2, 0xeb, 0x27, 0xb2, 0x75],
   [0x09, 0x83, 0x2c, 0x1a, 0x1b, 0x6e, 0x5a, 0xa0, 0x52, 0x3b, 0xd6, 0xb3, 0x29, 0xe3, 0x2f, 0x84],
   [0x53, 0xd1, 0x00, 0xed, 0x20, 0xfc, 0xb1, 0x5b, 0x6a, 0xcb, 0xbe, 0x39, 0x4a, 0x4c, 0x58, 0xcf],
   [0xd0, 0xef, 0xaa, 0xfb, 0x43, 0x4d, 0x33, 0x85, 0x45, 0xf9, 0x02, 0x7f, 0x50, 0x3c, 0x9f, 0xa8],
   [0x51, 0xa3, 0x40, 0x8f, 0x92, 0x9d, 0x38, 0xf5, 0xbc, 0xb6, 0xda, 0x21, 0x10, 0xff, 0xf3, 0xd2]] ++
  [[0xcd, 0x0c, 0x13, 0xec, 0x5f, 0x97, 0x44, 0x17, 0xc4, 0xa7, 0x7e, 0x3d, 0x64, 0x5d, 0x19, 0x73],
   [0x60, 0x81, 0x4f, 0xdc, 0x22, 0x2a, 0x90, 0x88, 0x46, 0xee, 0xb8, 0x14, 0xde, 0x5e, 0x0b, 0xdb],
   [0xe0, 0x32, 0x3a, 0x0a, 0x49, 0x06, 0x24, 0x5c, 0xc2, 0xd3, 0xac, 0x62, 0x91, 0x95, 0xe4, 0x79],
   [0xe7, 0xc8, 0x37, 0x6d, 0x8d, 0xd5, 0x4e, 0xa9, 0x6c, 0x56, 0xf4, 0xea, 0x65, 0x7a, 0xae, 0x08],
   [0xba, 0x78, 0x25, 0x2e, 0x1c, 0xa6, 0xb4, 0xc6, 0xe8, 0xdd, 0x74, 0x1f, 0x4b, 0xbd, 0x8b, 0x8a],
   [0x70, 0x3e, 0xb5, 0x66, 0x48, 0x03, 0xf6, 0x0e, 0x61, 0x35, 0x57, 0xb9, 0x86, 0xc1, 0x1d, 0x9e],
   [0xe1, 0xf8, 0x98, 0x11, 0x69, 0xd9, 0x8e, 0x94, 0x9b, 0x1e, 0x87, 0xe9, 0xce, 0x55, 0x28, 0xdf],
   [0x8c, 0xa1, 0x89, 0x0d, 0xbf, 0xe6, 0x42, 0x68, 0x41, 0x99, 0x2d, 0x0f, 0xb0, 0x54, 0xbb, 0x16]]

/-- `Sub(x) = SBOX[x]` (R91, R94). -/
def sbox (x : Byte) : Byte := (sboxRows.getD (x.toNat / 16) []).getD (x.toNat % 16) 0

/-- MUL2[x] (R92): "MUL2[x] = xtime(x) = 2 • x". -/
def mul2 (x : Byte) : Byte := xtime x

/-- MUL3[x] (R93): "MUL3[x] = xtime(x) ^ x = 3 • x". -/
def mul3 (x : Byte) : Byte := xtime x ^^^ x

/-- `s[i][j]`, the byte at row `i` and column `j` of a state: `s[4*j + i]` (R15). -/
def stateAt (s : Block) (i j : Fin 4) : Byte := s[4 * j.val + i.val]

/-- The state whose byte at row `i` and column `j` is `f i j` (R15). -/
def ofRowsCols (f : Fin 4 → Fin 4 → Byte) : Block :=
  tabulate fun b => f ⟨b.val % 4, by omega⟩ ⟨b.val / 4, by omega⟩

/-- Column `j` of a state, rows 0..3: the bytes `s[4j..4j+3]` (R97). -/
def column (s : Block) (j : Fin 4) : Quad :=
  #v[stateAt s 0 j, stateAt s 1 j, stateAt s 2 j, stateAt s 3 j]

/-- SBOX on every byte of a block. The core applies it to no masked state (R94); the key scheduler and the textbook
cipher use it. -/
def subBytes (s : Block) : Block := tabulate fun b => sbox s[b]

/-- Row rotation, ShiftRows (R95): `s'[i][j] = s[i][(j + i) mod 4]`. -/
def shiftRows (s : Block) : Block := ofRowsCols fun i j => stateAt s i (j + i)

/-- Column mixing of one column (R96). -/
def mixCol (a : Quad) : Quad :=
  #v[mul2 a[0] ^^^ mul3 a[1] ^^^ a[2] ^^^ a[3],
     a[0] ^^^ mul2 a[1] ^^^ mul3 a[2] ^^^ a[3],
     a[0] ^^^ a[1] ^^^ mul2 a[2] ^^^ mul3 a[3],
     mul3 a[0] ^^^ a[1] ^^^ a[2] ^^^ mul2 a[3]]

/-- Column mixing of a state, MixColumns (R97). -/
def mixColumns (s : Block) : Block := ofRowsCols fun i j => (mixCol (column s j))[i]

/-- XOR of two 16-byte values, byte by byte (R14). -/
def xorBlock (s t : Block) : Block := tabulate fun b => s[b] ^^^ t[b]

end Sys2Proof.Machine
end

