-- ==== Sys2Proof/Machine/Operands.lean ====
section
/-! DEFINITION. The operand forms: words of KEYIN and DATA (spec/20_memory.md R52), rows of masks taken from a
mask vector (spec/00_scope.md R19), entries of SM (R66) and round-key blocks. -/

namespace Sys2Proof.Machine

/-- `word(k) = {X[4k+3], X[4k+2], X[4k+1], X[4k]}`, byte `X[4k]` in bits 7:0 (R52). -/
def wordAt (x : Block) (k : Fin 4) : Word :=
  x[4 * k.val + 3] ++ x[4 * k.val + 2] ++ x[4 * k.val + 1] ++ x[4 * k.val]

/-- `v[8n+7:8n]` (R52). -/
def byteOf (v : Word) (n : Nat) : Byte := v.extractLsb' (8 * n) 8

/-- A write of `v` to word `k`: `X[4k+n] <- v[8n+7:8n]` for n = 0..3 (R52). -/
def setWordAt (x : Block) (k : Fin 4) (v : Word) : Block :=
  tabulate fun b => if b.val / 4 = k.val then byteOf v (b.val % 4) else x[b]

/-- Slots 0..3 of a mask vector, one for each row. -/
def rowMasks (m : MaskVec) : Quad := #v[m[0], m[1], m[2], m[3]]

/-- Slots 6..9 of a mask vector, one for each row. -/
def mixMasks (m : MaskVec) : Quad := #v[m[6], m[7], m[8], m[9]]

/-- One mask byte for all four rows. -/
def uniformMask (b : Byte) : Quad := #v[b, b, b, b]

/-- The masks of domain Z (R19). -/
def noMask : Quad := uniformMask 0

/-- `SM[y]`: the index is a byte, so it is in range (R66). -/
def smAt (sm : SubTable) (y : Byte) : Byte := sm[y.toNat]'y.isLt

/-- `RKM[r]` for r = ROUND; there is none for a ROUND above 10. -/
def roundKeyMasked (s : State) : Option Block := s.rkm[s.round.toNat]?

end Sys2Proof.Machine
end

