-- ==== Sys2Proof/Machine/Ops.lean ====
section
/-! DEFINITION. The named operations on the state that the meanings share: one update for each store or group of
stores, the acceptance and the rejection of a command, and reset. -/

namespace Sys2Proof.Machine

def State.setErr (s : State) (e : BitVec 2) : State := { s with err := e }
def State.setKeyIn (s : State) (b : Block) : State := { s with keyIn := b }
def State.setData (s : State) (b : Block) : State := { s with data := b }
def State.setGhost (s : State) (b : Block) : State := { s with ghost := b }
def State.setRkm (s : State) (t : KeyTable) : State := { s with rkm := t }
def State.setSm (s : State) (t : SubTable) : State := { s with sm := t }
def State.setGen (s : State) (g : GenState) : State := { s with gen := g }

/-- K, RK and KEY_VALID, which only KEXP writes (R24, R28, R29). -/
def State.setKey (s : State) (key : Block) (table : KeyTable) : State :=
  { s with k := key, rk := table, keyValid := true }

/-- The three mask vectors, which only GENMASK writes (R31, R32). -/
def State.setMasks (s : State) (m d1 d2 : MaskVec) : State := { s with mask := m, dm1 := d1, dm2 := d2 }

/-- The sequencer's state (R40, R41). -/
def State.setPhase (s : State) (p : BitVec 5) (r : BitVec 4) : State := { s with phase := p, round := r }

def State.setPending (s : State) (l : List HostAccess) : State := { s with pending := l }

/-- The word a host read returns, after the words returned before it. -/
def State.answer (s : State) (w : Word) : State := { s with answers := s.answers ++ [w] }

def State.setResets (s : State) (l : List Nat) : State := { s with resets := l }

/-- The core's one error, `raise InvalidInput(v)` (R200, R203): ERR becomes 1 and nothing else changes. The core has
no trap: no pc or status is saved, no mode changes and no vector is used (R206), and nothing returns from an error
(R207). -/
def raiseInvalidInput (s : State) : State := s.setErr errInvalidInput

/-- The acceptance of a command (R185): ERR becomes OK and the engine starts at phase `p`, round 0. -/
def acceptCommand (p : BitVec 5) (s : State) : State := (s.setErr errOk).setPhase p 0

/-- Reset (R220, R221): every store of the core takes its reset value, whatever the core was doing. The mask source
it is fitted with, the host's transactions and answers, and the reset line are outside the core and stay. -/
def applyReset (s : State) : State :=
  { State.reset with source := s.source, pending := s.pending, answers := s.answers, resets := s.resets }

end Sys2Proof.Machine
end

