-- ==== Sys2Proof/Machine/Commands.lean ====
section
/-! DEFINITION. The command words of CTRL (spec/44_host_interface.md R185-R189). -/

namespace Sys2Proof.Machine

/-- `CtrlWrite(v)` (R185): the tests in the order written, the first that applies decides (R201). -/
def ctrlWrite (v : Word) (s : State) : State :=
  if ctrlCmd v = 0b00 then s
  else if ctrlCmd v = 0b11 ∨ ctrlKeylen v ≠ 0b00 ∨ ctrlRsvd v ≠ 0 then raiseInvalidInput s
  else if ctrlCmd v = 0b01 then acceptCommand Phase.kexp s
  else if s.keyValid = false then raiseInvalidInput s
  else acceptCommand Phase.seed s

/-- NOP (R186): "no state changes at all". -/
def execNop (_hi : BitVec 30) (s : State) : Host.Outcome State Fault Refusal := .next s

/-- SET_KEY (R187): accepted; the engine performs KEXP next. -/
def execSetKey (s : State) : Host.Outcome State Fault Refusal := .next (acceptCommand Phase.kexp s)

/-- ENCRYPT (R188): accepted when KEY_VALID = 1, and then the engine performs the schedule of R140 from SEED. -/
def execEncrypt (s : State) : Host.Outcome State Fault Refusal :=
  .next (if s.keyValid then acceptCommand Phase.seed s else raiseInvalidInput s)

/-- REJECT (R189). -/
def execReject (_v : Word) (s : State) : Host.Outcome State Fault Refusal := .next (raiseInvalidInput s)

end Sys2Proof.Machine
end

