-- ==== Sys2Proof/Machine/HostPort.lean ====
section
/-! DEFINITION. The host transactions on the register window (spec/20_memory.md R50-R58,
spec/44_host_interface.md R181-R184), one definition for each TXN row. -/

namespace Sys2Proof.Machine

/-- What `MemRead(off, 4)` returns (R181), by the register at the offset. -/
def readReg (s : State) : Reg → Word
  | .ctrl => 0
  | .status => statusWord s
  | .reservedLow _ => 0
  | .key _ => 0
  | .data k => wordAt s.data k
  | .reservedHigh _ => 0

/-- What `MemWrite(off, 4, v)` does (R182), by the register at the offset. -/
def writeReg (r : Reg) (v : Word) (s : State) : State :=
  match r with
  | .ctrl => ctrlWrite v s
  | .status => s
  | .reservedLow _ => s
  | .key k => s.setKeyIn (setWordAt s.keyIn k v)
  | .data k => s.setData (setWordAt s.data k v)
  | .reservedHigh _ => s

/-- A read changes nothing in the core; the host receives the word (R58, R181). -/
def readTxn (r : Reg) (s : State) : Host.Outcome State Fault Refusal := .next (s.answer (readReg s r))

def execWrCtrl (v : Word) (s : State) : Host.Outcome State Fault Refusal := .next (writeReg .ctrl v s)
def execWrStatus (v : Word) (s : State) : Host.Outcome State Fault Refusal := .next (writeReg .status v s)
def execWrReservedLow (k : Fin 2) (v : Word) (s : State) : Host.Outcome State Fault Refusal :=
  .next (writeReg (.reservedLow k) v s)
def execWrKey (k : Fin 4) (v : Word) (s : State) : Host.Outcome State Fault Refusal := .next (writeReg (.key k) v s)
def execWrData (k : Fin 4) (v : Word) (s : State) : Host.Outcome State Fault Refusal :=
  .next (writeReg (.data k) v s)
def execWrReservedHigh (k : Fin 4) (v : Word) (s : State) : Host.Outcome State Fault Refusal :=
  .next (writeReg (.reservedHigh k) v s)

def execRdCtrl (_v : Word) (s : State) : Host.Outcome State Fault Refusal := readTxn .ctrl s
def execRdStatus (_v : Word) (s : State) : Host.Outcome State Fault Refusal := readTxn .status s
def execRdReservedLow (k : Fin 2) (_v : Word) (s : State) : Host.Outcome State Fault Refusal :=
  readTxn (.reservedLow k) s
def execRdKey (k : Fin 4) (_v : Word) (s : State) : Host.Outcome State Fault Refusal := readTxn (.key k) s
def execRdData (k : Fin 4) (_v : Word) (s : State) : Host.Outcome State Fault Refusal := readTxn (.data k) s
def execRdReservedHigh (k : Fin 4) (_v : Word) (s : State) : Host.Outcome State Fault Refusal :=
  readTxn (.reservedHigh k) s

/-- The offset of an access from BASE (R11), for the name of its refusal: OFF for a record. -/
def accessOffset : HostAccess → Int
  | .record r => (r.extractLsb' 32 6).toNat
  | .bus _ addr _ _ => (addr : Int) - (Config.base : Int)

/-- The width of an access in bits: 32 for a record. -/
def accessWidth : HostAccess → Nat
  | .record _ => 32
  | .bus _ _ width _ => width

/-- UNADMITTED (R55): "A model gives a refused access no step: the host is stuck with a named refusal
`UnadmittedAccess(offset, width)`". -/
def execUnadmitted (a : HostAccess) (_s : State) : Host.Outcome State Fault Refusal :=
  .refused (.unadmittedAccess (accessOffset a) (accessWidth a))

end Sys2Proof.Machine
end

