-- ==== Sys2Proof/Machine/KeyScheduler.lean ====
section
/-! DEFINITION. The Key Scheduler (spec/41_key_scheduler.md): the round constants, KeyExpand and the
micro-operation KEXP. -/

namespace Sys2Proof.Machine

/-- RCON[1..10] (R110). -/
def rconTable : List Byte := [0x01, 0x02, 0x04, 0x08, 0x10, 0x20, 0x40, 0x80, 0x1b, 0x36]

/-- RCON[t], t = 1..10 (R110). -/
def rcon (t : Nat) : Byte := rconTable.getD (t - 1) 0

/-- `(t[1], t[2], t[3], t[0])`, the word rotate of R111. -/
def rotWord (t : Quad) : Quad := #v[t[1], t[2], t[3], t[0]]

/-- SBOX on each byte of a word (R111). -/
def subWord (t : Quad) : Quad := #v[sbox t[0], sbox t[1], sbox t[2], sbox t[3]]

/-- XOR of two words, byte by byte. -/
def xorQuad (a b : Quad) : Quad := #v[a[0] ^^^ b[0], a[1] ^^^ b[1], a[2] ^^^ b[2], a[3] ^^^ b[3]]

/-- The temporary `t` of R111 for word `i`, from word `i-1`: rotated, substituted and XORed with the round constant
when `i mod 4 = 0`. -/
def scheduleTemp (i : Nat) (t : Quad) : Quad :=
  if i % 4 = 0 then xorQuad (subWord (rotWord t)) #v[rcon (i / 4), 0, 0, 0] else t

/-- `w[i]` of the key schedule, among the words made so far. -/
def wordOf (w : List Quad) (i : Nat) : Quad := w.getD i noMask

/-- One turn of R111's loop: `w[i] = w[i-4] ^ t`. -/
def expandWord (w : List Quad) (i : Nat) : List Quad :=
  w ++ [xorQuad (wordOf w (i - 4)) (scheduleTemp i (wordOf w (i - 1)))]

/-- The words w[0..43] of R111: the four words of the key, then i = 4..43. -/
def keyWords (key : Block) : List Quad :=
  (List.range' 4 40).foldl expandWord [column key 0, column key 1, column key 2, column key 3]

/-- `KeyExpand` (R111): `RK[r][4c + n] = w[4r + c][n]`. -/
def keyExpand (key : Block) : KeyTable :=
  let w := keyWords key
  tabulate fun r => ofRowsCols fun n c => (wordOf w (4 * r.val + c.val))[n]

/-- KEXP (R112). It sets PHASE to IDLE itself. -/
def execKexp (s : State) : Host.Outcome State Fault Refusal :=
  .next ((s.setKey s.keyIn (keyExpand s.keyIn)).setPhase Phase.idle 0)

end Sys2Proof.Machine
end

