-- ==== Sys2Proof/Machine/Masking.lean ====
section
/-! DEFINITION. The Mask Generator, the Masked Substitution Table Builder and the Remasking Operator
(spec/42_masking.md): pure functions that the micro-operations apply. -/

namespace Sys2Proof.Machine

/-! ### The mask source (R12, R120-R122) -/

/-- `seed` of `lcgRef`: `W0 ^ W1 ^ W2 ^ W3`, the four little-endian words of the block (R122). -/
def lcgSeed (b : Block) : Word := wordAt b 0 ^^^ wordAt b 1 ^^^ wordAt b 2 ^^^ wordAt b 3

/-- The next state of `lcgRef`: `(1103515245 * s + 12345) mod 2^32` (R122). -/
def lcgNext (s : Word) : Word := 1103515245 * s + 12345

/-- `MaskSource.seed(B)` (R121). -/
def seedGen : MaskSource → Block → GenState
  | .lcgRef, b => .lcg (lcgSeed b)
  | .listSource first rest, _ => .list first rest 0
  | .external, b => .external (Config.externalSeed b)

/-- `draw(σ)`: one byte and the next state. `lcgRef` gives bits 23:16 of its new state (R122). The list source gives
the bytes in order and starts again after the last. -/
def draw : GenState → Byte × GenState
  | .lcg s => ((lcgNext s).extractLsb' 16 8, .lcg (lcgNext s))
  | .list first rest n => ((first :: rest).getD (n % (rest.length + 1)) first, .list first rest (n + 1))
  | .external n => ((Config.externalDraw n).1, .external (Config.externalDraw n).2)

/-! ### Mask generation (R123-R125) -/

/-- A slot of one of the three mask vectors. -/
inductive MaskSlot where
  | mask (k : Fin 10)
  | dm1 (k : Fin 10)
  | dm2 (k : Fin 10)
deriving DecidableEq, Repr

/-- The slots that draws 1..18 write, in order (R123). -/
def drawOrder : List MaskSlot :=
  [.mask 4, .dm1 4, .dm2 4, .mask 0, .dm1 0, .dm2 0,
   .mask 1, .dm1 1, .dm2 1, .mask 2, .dm1 2, .dm2 2,
   .mask 3, .dm1 3, .dm2 3, .dm1 5, .dm2 5, .mask 5]

/-- The three vectors and the generator state while masks are drawn. -/
abbrev MaskDraws := MaskVec × MaskVec × MaskVec × GenState

/-- One draw of R125's loop: `(byte, GEN) <- draw(GEN)`, then `slot(k) <- byte`. -/
def drawSlot (acc : MaskDraws) (slot : MaskSlot) : MaskDraws :=
  let (m, d1, d2, g) := acc
  let (byte, g') := draw g
  match slot with
  | .mask k => (m.set k.val byte k.isLt, d1, d2, g')
  | .dm1 k => (m, d1.set k.val byte k.isLt, d2, g')
  | .dm2 k => (m, d1, d2.set k.val byte k.isLt, g')

/-- Slots 6..9 become MixCol of slots 0..3 (R124). -/
def deriveSlots (v : MaskVec) : MaskVec :=
  let mixed := mixCol (rowMasks v)
  #v[v[0], v[1], v[2], v[3], v[4], v[5], mixed[0], mixed[1], mixed[2], mixed[3]]

/-- `GenMasks` (R125): the 18 draws, then the derived slots of all three vectors. -/
def genMasks (m d1 d2 : MaskVec) (g : GenState) : MaskDraws :=
  let (m', d1', d2', g') := drawOrder.foldl drawSlot (m, d1, d2, g)
  (deriveSlots m', deriveSlots d1', deriveSlots d2', g')

/-! ### The masked substitution table (R126, R127) -/

/-- `SM[y] = SBOX[y ^ MASK[4]] ^ MASK[5]` for every byte y (R126). -/
def buildSM (m4 m5 : Byte) : SubTable := tabulate fun y => sbox (BitVec.ofNat 8 y.val ^^^ m4) ^^^ m5

/-! ### Remasking (R130) -/

/-- `RemaskState(s, m1..m8)` (R130) with the quadruples m1..m4 and m5..m8:
`s[i][j] <- s[i][j] ^ (m_{i+1} ^ m_{i+5})`. -/
def remaskState (s : Block) (old new : Quad) : Block :=
  ofRowsCols fun i j => stateAt s i j ^^^ (old[i] ^^^ new[i])

end Sys2Proof.Machine
end

