-- ==== Sys2Proof/Machine/Sequencer.lean ====
section
/-! DEFINITION. The sequencer (spec/43_round_engine.md R161, R162): the round classes, `Next`, and the shape that
every micro-operation but KEXP and CLEANUP has. -/

namespace Sys2Proof.Machine

/-- `SubKind(r)` (R161). -/
def subKind (r : BitVec 4) : BitVec 5 :=
  if r = 1 ∨ r = 8 ∨ r = 9 ∨ r = 10 then Phase.subDecoy else Phase.subUniform

/-- `ArkKind(r)` (R161). -/
def arkKind (r : BitVec 4) : BitVec 5 :=
  if r = 0 ∨ r = 2 ∨ r = 3 ∨ r = 5 ∨ r = 7 then Phase.arkDecoy else Phase.ark

/-- `Next(PHASE, ROUND)` (R162), row by row; none for a pair the table does not list (log entry 7). -/
def nextPhase (p : BitVec 5) (r : BitVec 4) : Option (BitVec 5 × BitVec 4) :=
  if p = Phase.seed then some (Phase.genmask, 0)
  else if p = Phase.genmask then some (Phase.buildSbox, 0)
  else if p = Phase.buildSbox then some (Phase.rkFinal, 0)
  else if p = Phase.rkFinal then some (Phase.ghostInit, 0)
  else if p = Phase.ghostInit then some (Phase.rkMask, 0)
  else if p = Phase.rkMask then some (Phase.r0Remask, 0)
  else if p = Phase.r0Remask then some (arkKind 0, 0)
  else if p = Phase.arkDecoy ∨ p = Phase.ark then
    if r ≤ 9 then some (subKind (r + 1), r + 1) else none
  else if p = Phase.subUniform ∨ p = Phase.subDecoy then some (Phase.shift, r)
  else if p = Phase.shift then
    if r ≤ 9 then some (Phase.remaskMc, r) else if r = 10 then some (Phase.ghostUnmask, 10) else none
  else if p = Phase.remaskMc then some (Phase.mix, r)
  else if p = Phase.mix then some (arkKind r, r)
  else if p = Phase.ghostUnmask then some (Phase.ghostMix, 10)
  else if p = Phase.ghostMix then some (Phase.finalArk, 10)
  else if p = Phase.finalArk then some (Phase.cleanup, 10)
  else if p = Phase.cleanup then some (Phase.idle, 0)
  else none

/-- A micro-operation of phase `p`: its effect on the stores, then `(PHASE, ROUND) <- Next(PHASE, ROUND)` (R162).
A pair that `Next` does not list faults with `ReservedPhase`. -/
def microOp (p : BitVec 5) (effect : State → State) (s : State) : Host.Outcome State Fault Refusal :=
  match nextPhase p s.round with
  | some (p', r') => .next ((effect s).setPhase p' r')
  | none => .fault (.reservedPhase p s.round)

end Sys2Proof.Machine
end

