-- ==== Sys2Proof/Machine/RoundEngine.lean ====
section
/-! DEFINITION. The micro-operations of the Dual-State Round Engine (spec/43_round_engine.md), in the order of
their phase codes, one definition each. -/

namespace Sys2Proof.Machine

/-! ### Setup -/

/-- SEED (R141): `GEN <- MaskSource.seed(DATA)`. -/
def execSeed (s : State) : Host.Outcome State Fault Refusal :=
  microOp Phase.seed (fun s => s.setGen (seedGen s.source s.data)) s

/-- The stores GENMASK writes. -/
def genmaskEffect (s : State) : State :=
  let (m, d1, d2, g) := genMasks s.mask s.dm1 s.dm2 s.gen
  (s.setMasks m d1 d2).setGen g

/-- GENMASK (R142). -/
def execGenmask (s : State) : Host.Outcome State Fault Refusal := microOp Phase.genmask genmaskEffect s

/-- BUILD_SBOX (R143). -/
def execBuildSbox (s : State) : Host.Outcome State Fault Refusal :=
  microOp Phase.buildSbox (fun s => s.setSm (buildSM s.mask[4] s.mask[5])) s

/-- RK_FINAL (R144): RKM is a copy of RK, and RKM[10] goes from Z to MOUT. -/
def execRkFinal (s : State) : Host.Outcome State Fault Refusal :=
  microOp Phase.rkFinal
    (fun s => s.setRkm (s.rk.set 10 (remaskState s.rk[10] noMask (uniformMask s.mask[5])))) s

/-- GHOST_INIT (R145). -/
def execGhostInit (s : State) : Host.Outcome State Fault Refusal :=
  microOp Phase.ghostInit (fun s => s.setGhost (remaskState s.data (mixMasks s.dm1) (mixMasks s.dm2))) s

/-- RK_MASK (R146): blocks 0..9 go from MMIX to MIN; block 10 stays. -/
def execRkMask (s : State) : Host.Outcome State Fault Refusal :=
  microOp Phase.rkMask
    (fun s => s.setRkm (tabulate fun r =>
      if r.val ≤ 9 then remaskState s.rkm[r] (mixMasks s.mask) (uniformMask s.mask[4]) else s.rkm[r])) s

/-! ### Round 0 and rounds 1..10 -/

/-- R0_REMASK (R147). -/
def execR0Remask (s : State) : Host.Outcome State Fault Refusal :=
  microOp Phase.r0Remask (fun s => s.setData (remaskState s.data noMask (mixMasks s.mask))) s

/-- XOR of every byte with 0xA5, the decoy pattern (R148). -/
def decoyBlock (b : Block) : Block := tabulate fun i => b[i] ^^^ Config.decoy

/-- ARK_DECOY (R148), with the round-key block RKM[ROUND]. A ROUND with no such block is a pair that `Next` does not
list. -/
def execArkDecoy (s : State) : Host.Outcome State Fault Refusal :=
  match roundKeyMasked s with
  | some key =>
    microOp Phase.arkDecoy
      (fun s => (s.setData (xorBlock s.data key)).setGhost (decoyBlock (xorBlock s.ghost key))) s
  | none => .fault (.reservedPhase Phase.arkDecoy s.round)

/-- A lookup in SM for each of the 16 bytes. -/
def subMasked (sm : SubTable) (b : Block) : Block := tabulate fun i => smAt sm b[i]

/-- SUB_UNIFORM (R149). -/
def execSubUniform (s : State) : Host.Outcome State Fault Refusal :=
  microOp Phase.subUniform
    (fun s => (s.setData (subMasked s.sm s.data)).setGhost (subMasked s.sm s.ghost)) s

/-- The byte positions `4*j + i` of R150's loops, rows first. -/
def rowMajor : List (Fin 16) := [0, 4, 8, 12, 1, 5, 9, 13] ++ [2, 6, 10, 14, 3, 7, 11, 15]

/-- One position of R150's loop on DATA, GHOST and GEN. The decoy result `t` is discarded: "A model may drop it". -/
def subDecoyByte (sm : SubTable) (acc : Block × Block × GenState) (b : Fin 16) : Block × Block × GenState :=
  let (data, ghost, g) := acc
  let (fresh, g') := draw g
  (data.set b.val (smAt sm data[b]) b.isLt, ghost.set b.val fresh b.isLt, g')

/-- The stores SUB_DECOY writes. -/
def subDecoyEffect (s : State) : State :=
  let (data, ghost, g) := rowMajor.foldl (subDecoyByte s.sm) (s.data, s.ghost, s.gen)
  ((s.setData data).setGhost ghost).setGen g

/-- SUB_DECOY (R150). -/
def execSubDecoy (s : State) : Host.Outcome State Fault Refusal := microOp Phase.subDecoy subDecoyEffect s

/-- SHIFT (R151), in every round with no test of the round number (R155). -/
def execShift (s : State) : Host.Outcome State Fault Refusal :=
  microOp Phase.shift (fun s => (s.setData (shiftRows s.data)).setGhost (shiftRows s.ghost)) s

/-- REMASK_MC (R152). -/
def execRemaskMc (s : State) : Host.Outcome State Fault Refusal :=
  microOp Phase.remaskMc
    (fun s => (s.setData (remaskState s.data (uniformMask s.mask[5]) (rowMasks s.mask))).setGhost
      (remaskState s.ghost (uniformMask s.dm2[5]) (rowMasks s.dm1))) s

/-- MIX (R153). -/
def execMix (s : State) : Host.Outcome State Fault Refusal :=
  microOp Phase.mix (fun s => (s.setData (mixColumns s.data)).setGhost (mixColumns s.ghost)) s

/-- ARK (R154), with the round-key block RKM[ROUND]; GHOST is not touched. -/
def execArk (s : State) : Host.Outcome State Fault Refusal :=
  match roundKeyMasked s with
  | some key => microOp Phase.ark (fun s => s.setData (xorBlock s.data key)) s
  | none => .fault (.reservedPhase Phase.ark s.round)

/-! ### Termination -/

/-- GHOST_UNMASK (R157), with the pair of GHOST_INIT. -/
def execGhostUnmask (s : State) : Host.Outcome State Fault Refusal :=
  microOp Phase.ghostUnmask (fun s => s.setGhost (remaskState s.ghost (mixMasks s.dm1) (mixMasks s.dm2))) s

/-- GHOST_MIX (R158). -/
def execGhostMix (s : State) : Host.Outcome State Fault Refusal :=
  microOp Phase.ghostMix (fun s => s.setGhost (mixColumns s.ghost)) s

/-- FINAL_ARK (R159). -/
def execFinalArk (s : State) : Host.Outcome State Fault Refusal :=
  microOp Phase.finalArk (fun s => s.setData (xorBlock s.data s.rkm[10])) s

/-- CLEANUP (R160). It sets PHASE to IDLE itself. -/
def execCleanup (s : State) : Host.Outcome State Fault Refusal :=
  .next ((s.setGhost zeroBlock).setPhase Phase.idle 0)

/-! ### IDLE and the reserved codes -/

/-- IDLE (R40, R78): the engine has no step, so nothing changes. -/
def execIdle (s : State) : Host.Outcome State Fault Refusal := .next s

/-- "reserved | never reached. A model that finds one faults with `ReservedPhase`" (R78). -/
def reservedCode (p : BitVec 5) (s : State) : Host.Outcome State Fault Refusal := .fault (.reservedPhase p s.round)

def execReservedPhase14 (s : State) : Host.Outcome State Fault Refusal := reservedCode 0x14 s
def execReservedPhase15 (s : State) : Host.Outcome State Fault Refusal := reservedCode 0x15 s
def execReservedPhase16 (s : State) : Host.Outcome State Fault Refusal := reservedCode 0x16 s
def execReservedPhase17 (s : State) : Host.Outcome State Fault Refusal := reservedCode 0x17 s
def execReservedPhase18 (s : State) : Host.Outcome State Fault Refusal := reservedCode 0x18 s
def execReservedPhase19 (s : State) : Host.Outcome State Fault Refusal := reservedCode 0x19 s
def execReservedPhase1A (s : State) : Host.Outcome State Fault Refusal := reservedCode 0x1A s
def execReservedPhase1B (s : State) : Host.Outcome State Fault Refusal := reservedCode 0x1B s
def execReservedPhase1C (s : State) : Host.Outcome State Fault Refusal := reservedCode 0x1C s
def execReservedPhase1D (s : State) : Host.Outcome State Fault Refusal := reservedCode 0x1D s
def execReservedPhase1E (s : State) : Host.Outcome State Fault Refusal := reservedCode 0x1E s
def execReservedPhase1F (s : State) : Host.Outcome State Fault Refusal := reservedCode 0x1F s

end Sys2Proof.Machine
end

