-- ==== Sys2Proof/Machine/Dispatch.lean ====
section
/-! DEFINITION. The meaning of every instruction, one arm for each constructor of Instr. -/

namespace Sys2Proof.Machine

def exec (i : Instr) (s : State) : Host.Outcome State Fault Refusal :=
  match i with
  | .nop hi => Sys2Proof.Machine.execNop hi s
  | .setKey => Sys2Proof.Machine.execSetKey s
  | .encrypt => Sys2Proof.Machine.execEncrypt s
  | .reject v => Sys2Proof.Machine.execReject v s
  | .wrCtrl v => Sys2Proof.Machine.execWrCtrl v s
  | .wrStatus v => Sys2Proof.Machine.execWrStatus v s
  | .wrReservedLow k v => Sys2Proof.Machine.execWrReservedLow k v s
  | .wrKey k v => Sys2Proof.Machine.execWrKey k v s
  | .wrData k v => Sys2Proof.Machine.execWrData k v s
  | .wrReservedHigh k v => Sys2Proof.Machine.execWrReservedHigh k v s
  | .rdCtrl v => Sys2Proof.Machine.execRdCtrl v s
  | .rdStatus v => Sys2Proof.Machine.execRdStatus v s
  | .rdReservedLow k v => Sys2Proof.Machine.execRdReservedLow k v s
  | .rdKey k v => Sys2Proof.Machine.execRdKey k v s
  | .rdData k v => Sys2Proof.Machine.execRdData k v s
  | .rdReservedHigh k v => Sys2Proof.Machine.execRdReservedHigh k v s
  | .unadmitted a => Sys2Proof.Machine.execUnadmitted a s
  | .idle => Sys2Proof.Machine.execIdle s
  | .kexp => Sys2Proof.Machine.execKexp s
  | .seed => Sys2Proof.Machine.execSeed s
  | .genmask => Sys2Proof.Machine.execGenmask s
  | .buildSbox => Sys2Proof.Machine.execBuildSbox s
  | .rkFinal => Sys2Proof.Machine.execRkFinal s
  | .ghostInit => Sys2Proof.Machine.execGhostInit s
  | .rkMask => Sys2Proof.Machine.execRkMask s
  | .r0Remask => Sys2Proof.Machine.execR0Remask s
  | .arkDecoy => Sys2Proof.Machine.execArkDecoy s
  | .subUniform => Sys2Proof.Machine.execSubUniform s
  | .subDecoy => Sys2Proof.Machine.execSubDecoy s
  | .shift => Sys2Proof.Machine.execShift s
  | .remaskMc => Sys2Proof.Machine.execRemaskMc s
  | .mix => Sys2Proof.Machine.execMix s
  | .ark => Sys2Proof.Machine.execArk s
  | .ghostUnmask => Sys2Proof.Machine.execGhostUnmask s
  | .ghostMix => Sys2Proof.Machine.execGhostMix s
  | .finalArk => Sys2Proof.Machine.execFinalArk s
  | .cleanup => Sys2Proof.Machine.execCleanup s
  | .reservedPhase14 => Sys2Proof.Machine.execReservedPhase14 s
  | .reservedPhase15 => Sys2Proof.Machine.execReservedPhase15 s
  | .reservedPhase16 => Sys2Proof.Machine.execReservedPhase16 s
  | .reservedPhase17 => Sys2Proof.Machine.execReservedPhase17 s
  | .reservedPhase18 => Sys2Proof.Machine.execReservedPhase18 s
  | .reservedPhase19 => Sys2Proof.Machine.execReservedPhase19 s
  | .reservedPhase1A => Sys2Proof.Machine.execReservedPhase1A s
  | .reservedPhase1B => Sys2Proof.Machine.execReservedPhase1B s
  | .reservedPhase1C => Sys2Proof.Machine.execReservedPhase1C s
  | .reservedPhase1D => Sys2Proof.Machine.execReservedPhase1D s
  | .reservedPhase1E => Sys2Proof.Machine.execReservedPhase1E s
  | .reservedPhase1F => Sys2Proof.Machine.execReservedPhase1F s

end Sys2Proof.Machine
end

