-- ==== Sys2Proof/Machine/Fetch.lean ====
section
/-! DEFINITION. What the machine performs next (spec/44_host_interface.md R180): the micro-operation PHASE names
while PHASE ≠ IDLE, and the host's oldest pending transaction when PHASE = IDLE; and whether the reset line is
asserted at this step boundary (spec/70_reset_and_hazards.md R221). -/

namespace Sys2Proof.Machine

/-- Whether reset comes at this step boundary, and the reset line's plan after it: each entry is the number of steps
still to be performed before the next reset (log entry 5). -/
def resetLine : List Nat → Bool × List Nat
  | [] => (false, [])
  | 0 :: rest => (true, rest)
  | (n + 1) :: rest => (false, n :: rest)

/-- The instruction performed next and the state it is performed in. A transaction leaves the pending list when it is
performed. When PHASE = IDLE and the host asks for nothing, that is IDLE (log entry 4). -/
def fetch (s : State) : Instr × State :=
  if s.phase = Phase.idle then
    match s.pending with
    | [] => (.idle, s)
    | a :: rest => (decodeAccess a, s.setPending rest)
  else (decodePhase s.phase, s)

/-- A round in which the schedule of R140 runs a phase, its first. -/
def firstRound (p : BitVec 5) : BitVec 4 :=
  if p = Phase.subDecoy ∨ p = Phase.shift ∨ p = Phase.remaskMc ∨ p = Phase.mix ∨ p = Phase.ark then 1
  else if p = Phase.subUniform then 2
  else if p = Phase.ghostUnmask ∨ p = Phase.ghostMix ∨ p = Phase.finalArk ∨ p = Phase.cleanup then 10
  else 0

/-- The state whose next step performs the phase code `p`: PHASE and ROUND hold it, no reset is due, and for IDLE the
host asks for nothing. -/
def placePhase (p : BitVec 5) (s : State) : State :=
  { s with phase := p, round := firstRound p, resets := [], pending := if p = Phase.idle then [] else s.pending }

/-- The state whose next step performs the access `a`: the engine is IDLE, no reset is due, and `a` is the host's
oldest pending access. -/
def placeAccess (a : HostAccess) (s : State) : State :=
  { s with phase := Phase.idle, round := 0, resets := [], pending := a :: s.pending }

/-- The word of the opcode table placed where the machine takes its next instruction: a phase code in PHASE, a command
word as the value of a write to CTRL (the one way a command reaches the core, R70), and a record as the host's
oldest pending transaction. -/
def placeWord (s : State) (nbits w : Nat) : State :=
  if nbits ≤ 8 then placePhase (BitVec.ofNat 5 w) s
  else if nbits ≤ 32 then placeAccess (.record (record 0 1 (offsetOf .ctrl) (BitVec.ofNat 32 w))) s
  else placeAccess (.record (BitVec.ofNat 40 w)) s

end Sys2Proof.Machine
end

