-- ==== Sys2Proof/Machine/Step.lean ====
section
/-! DEFINITION. One step of the machine: a reset when one is due, and otherwise the step of the agent that has one
(spec/44_host_interface.md R180, spec/70_reset_and_hazards.md R221, R227). -/

namespace Sys2Proof.Machine

/-- The step of the engine or of the host. -/
def agentStep (s : State) : Host.Outcome State Fault Refusal := exec (fetch s).1 (fetch s).2

/-- One step. -/
def step (s : State) : Host.Outcome State Fault Refusal :=
  if (resetLine s.resets).1 then .next (applyReset (s.setResets (resetLine s.resets).2))
  else agentStep (s.setResets (resetLine s.resets).2)

/-- The state with a word of the opcode table placed where `step` takes its next instruction. -/
def State.withFetchWord (s : State) (nbits w : Nat) : State := placeWord s nbits w

end Sys2Proof.Machine
end

