-- ==== Sys2Proof/Safety.lean ====
section
/-! DEFINITION. The terms claims about the core are stated in: the textbook cipher, the mask domains of
spec/00_scope.md R19, the schedule of spec/43_round_engine.md R140, the chain of draws, and the invariants of the
machine and of an ENCRYPT in progress. -/

namespace Sys2Proof.Safety

open Sys2Proof.Machine

/-! ### Runs -/

/-- No reset comes at this step boundary or later (R221). -/
def Undisturbed (s : State) : Prop := s.resets = []

/-- Reset comes at this step boundary (R221). -/
def ResetDue (s : State) : Prop := (resetLine s.resets).1 = true

/-- A safe step is one that answers a next state. -/
def SafeStep (s : State) : Prop := ∃ t, step s = .next t

/-! ### The textbook cipher (R2, R164 "the textbook computation") -/

/-- Round key `r` of a table, r = 0..10. -/
def keyAt (rk : KeyTable) (r : Nat) : Block := rk[r]?.getD zeroBlock

/-- The AES state after the key addition of round `r`, r = 0..9. -/
def afterArk (rk : KeyTable) (p : Block) : Nat → Block
  | 0 => xorBlock p (keyAt rk 0)
  | r + 1 => xorBlock (mixColumns (shiftRows (subBytes (afterArk rk p r)))) (keyAt rk (r + 1))

/-- The AES-128 ciphertext of the block `p` under the round keys `rk`: nine full rounds and a last round without
column mixing (R156). -/
def cipher (rk : KeyTable) (p : Block) : Block :=
  xorBlock (shiftRows (subBytes (afterArk rk p 9))) (keyAt rk 10)

/-- AES-128-Encrypt(K, P) (R170). -/
def aes128 (key p : Block) : Block := cipher (keyExpand key) p

/-- A round-key block from the block before it and the round constant, as FIPS-197 has it (R113). -/
def nextRoundKey (c : Byte) (b : Block) : Block :=
  let w0 := xorQuad (column b 0) (xorQuad (subWord (rotWord (column b 3))) #v[c, 0, 0, 0])
  let w1 := xorQuad (column b 1) w0
  let w2 := xorQuad (column b 2) w1
  let w3 := xorQuad (column b 3) w2
  ofRowsCols fun i j => (#v[w0, w1, w2, w3])[j][i]

/-! ### Mask domains (R19) -/

inductive Domain where
  | z
  | min
  | mout
  | mrow
  | mmix
deriving DecidableEq, Repr

/-- The mask of each row in a domain, from MASK (R19). -/
def rowMask (m : MaskVec) : Domain → Quad
  | .z => noMask
  | .min => uniformMask m[4]
  | .mout => uniformMask m[5]
  | .mrow => rowMasks m
  | .mmix => mixMasks m

/-- The state that holds the true value `v` with row `i` masked by `q[i]`. -/
def maskedBy (q : Quad) (v : Block) : Block := tabulate fun b => v[b] ^^^ q[b.val % 4]

/-- `a` is the masked form of `v` in the domain `d` of the masks `m`. -/
def InDomain (m : MaskVec) (d : Domain) (v a : Block) : Prop := a = maskedBy (rowMask m d) v

/-- R164's table: the domain of DATA at the end of a micro-operation. -/
def domainAfter (p : BitVec 5) : Domain :=
  if p = Phase.r0Remask ∨ p = Phase.mix then .mmix
  else if p = Phase.arkDecoy ∨ p = Phase.ark then .min
  else if p = Phase.subUniform ∨ p = Phase.subDecoy ∨ p = Phase.shift then .mout
  else if p = Phase.remaskMc then .mrow
  else if p = Phase.ghostUnmask ∨ p = Phase.ghostMix then .mout
  else .z

/-- R164's table: the true value of DATA at the end of the micro-operation `(p, r)` of an ENCRYPT of the block
`pt`. -/
def trueAfter (rk : KeyTable) (pt : Block) (p : BitVec 5) (r : BitVec 4) : Block :=
  if p = Phase.arkDecoy ∨ p = Phase.ark then afterArk rk pt r.toNat
  else if p = Phase.subUniform ∨ p = Phase.subDecoy then subBytes (afterArk rk pt (r.toNat - 1))
  else if p = Phase.shift ∨ p = Phase.remaskMc then shiftRows (subBytes (afterArk rk pt (r.toNat - 1)))
  else if p = Phase.mix then mixColumns (shiftRows (subBytes (afterArk rk pt (r.toNat - 1))))
  else if p = Phase.ghostUnmask ∨ p = Phase.ghostMix then shiftRows (subBytes (afterArk rk pt 9))
  else if p = Phase.finalArk ∨ p = Phase.cleanup then cipher rk pt
  else pt

/-- The domain of DATA when the engine is about to perform a micro-operation. -/
def domainBefore (p : BitVec 5) : Domain :=
  if p = Phase.arkDecoy ∨ p = Phase.ark then .mmix
  else if p = Phase.subUniform ∨ p = Phase.subDecoy then .min
  else if p = Phase.shift ∨ p = Phase.remaskMc then .mout
  else if p = Phase.mix then .mrow
  else if p = Phase.ghostUnmask ∨ p = Phase.ghostMix ∨ p = Phase.finalArk then .mout
  else .z

/-- The true value of DATA when the engine is about to perform `(p, r)`. -/
def trueBefore (rk : KeyTable) (pt : Block) (p : BitVec 5) (r : BitVec 4) : Block :=
  if p = Phase.arkDecoy ∨ p = Phase.ark then
    if r = 0 then pt else mixColumns (shiftRows (subBytes (afterArk rk pt (r.toNat - 1))))
  else if p = Phase.subUniform ∨ p = Phase.subDecoy then afterArk rk pt (r.toNat - 1)
  else if p = Phase.shift then subBytes (afterArk rk pt (r.toNat - 1))
  else if p = Phase.remaskMc ∨ p = Phase.mix then shiftRows (subBytes (afterArk rk pt (r.toNat - 1)))
  else if p = Phase.ghostUnmask ∨ p = Phase.ghostMix ∨ p = Phase.finalArk then
    shiftRows (subBytes (afterArk rk pt 9))
  else if p = Phase.cleanup then cipher rk pt
  else pt

/-! ### The schedule (R140) -/

/-- The five micro-operations of one of rounds 1..9. -/
def roundSteps (sub add : BitVec 5) (r : BitVec 4) : List (BitVec 5 × BitVec 4) :=
  [(sub, r), (Phase.shift, r), (Phase.remaskMc, r), (Phase.mix, r), (add, r)]

/-- The 59 pairs of R140, as its table lists them. -/
def encryptSchedule : List (BitVec 5 × BitVec 4) :=
  [(Phase.seed, 0), (Phase.genmask, 0), (Phase.buildSbox, 0), (Phase.rkFinal, 0), (Phase.ghostInit, 0),
   (Phase.rkMask, 0), (Phase.r0Remask, 0), (Phase.arkDecoy, 0)] ++
  roundSteps Phase.subDecoy Phase.ark 1 ++ roundSteps Phase.subUniform Phase.arkDecoy 2 ++
  roundSteps Phase.subUniform Phase.arkDecoy 3 ++ roundSteps Phase.subUniform Phase.ark 4 ++
  roundSteps Phase.subUniform Phase.arkDecoy 5 ++ roundSteps Phase.subUniform Phase.ark 6 ++
  roundSteps Phase.subUniform Phase.arkDecoy 7 ++ roundSteps Phase.subDecoy Phase.ark 8 ++
  roundSteps Phase.subDecoy Phase.ark 9 ++
  [(Phase.subDecoy, 10), (Phase.shift, 10), (Phase.ghostUnmask, 10), (Phase.ghostMix, 10), (Phase.finalArk, 10),
   (Phase.cleanup, 10)]

/-- An accepted ENCRYPT about to perform its first micro-operation (R188). -/
def AtEncryptStart (s : State) : Prop := s.phase = Phase.seed ∧ s.round = 0

/-! ### The chain of draws (R12, R120) -/

/-- The generator state after `n` draws. -/
def genAfter : Nat → GenState → GenState
  | 0, g => g
  | n + 1, g => genAfter n (draw g).2

/-- Draw number `n` of the chain that starts at `g`, counted from 1 (R123). -/
def drawnByte (g : GenState) (n : Nat) : Byte := (draw (genAfter (n - 1) g)).1

/-! ### The table builder's loop (R127) -/

/-- `SM[x ^ MASK[4]] <- SBOX[x] ^ MASK[5]`. -/
def storeSM (m4 m5 : Byte) (sm : SubTable) (x : Byte) : SubTable :=
  sm.set (x ^^^ m4).toNat (sbox x ^^^ m5) (x ^^^ m4).isLt

/-- R127's loop over a list of bytes, one store for each. -/
def buildSMLoop (m4 m5 : Byte) (order : List Byte) (sm : SubTable) : SubTable := order.foldl (storeSM m4 m5) sm

/-- The bytes 0..255 in order. -/
def allBytes : List Byte := (List.range 256).map (BitVec.ofNat 8)

/-! ### The invariants -/

/-- What holds of every state a run from reset reaches: PHASE and ROUND are IDLE, KEXP or a pair of the schedule
(R78, R140, R162), ENCRYPT runs only with a key (R188), RK is the expansion of K once there is a key (R28, R111),
ERR is OK or INVALID_INPUT (R25), and GHOST is zero until GHOST_INIT (R34, R160). -/
structure MachineInv (s : State) : Prop where
  scheduled : (s.phase = Phase.idle ∧ s.round = 0) ∨ (s.phase = Phase.kexp ∧ s.round = 0) ∨
    (s.phase, s.round) ∈ encryptSchedule
  keyed : (s.phase, s.round) ∈ encryptSchedule → s.keyValid = true
  expanded : s.keyValid = true → s.rk = keyExpand s.k
  errCode : s.err = errOk ∨ s.err = errInvalidInput
  accepted : s.phase ≠ Phase.idle → s.err = errOk
  ghostClear : s.phase.toNat ≤ Phase.ghostInit.toNat → s.ghost = zeroBlock

/-- What holds while the engine encrypts the block `pt`: the pair is one of the schedule; DATA is in the domain of
R164 with its true value; and each store that a finished setup step wrote holds what that step computes (R124, R126,
R144, R146). -/
structure EncryptInv (pt : Block) (s : State) : Prop where
  scheduled : (s.phase, s.round) ∈ encryptSchedule
  domain : InDomain s.mask (domainBefore s.phase) (trueBefore s.rk pt s.phase s.round) s.data
  masks : Phase.genmask.toNat < s.phase.toNat → mixMasks s.mask = mixCol (rowMasks s.mask)
  table : Phase.buildSbox.toNat < s.phase.toNat →
    ∀ y : Byte, smAt s.sm y = sbox (y ^^^ s.mask[4]) ^^^ s.mask[5]
  lastKey : Phase.rkFinal.toNat < s.phase.toNat →
    keyAt s.rkm 10 = maskedBy (uniformMask s.mask[5]) (keyAt s.rk 10)
  copiedKeys : Phase.rkFinal.toNat < s.phase.toNat → s.phase.toNat ≤ Phase.rkMask.toNat →
    ∀ r < 10, keyAt s.rkm r = keyAt s.rk r
  maskedKeys : Phase.rkMask.toNat < s.phase.toNat →
    ∀ r < 10, keyAt s.rkm r = maskedBy (mixMasks s.mask) (maskedBy (uniformMask s.mask[4]) (keyAt s.rk r))

/-- The host cannot tell the two states apart by what it may read, what it has been answered and what it still asks
for, and the core holds the same key in both. The mask stores, SM, RKM, GHOST, GEN and the mask source may differ. -/
structure HostAgree (s t : State) : Prop where
  keyValid : s.keyValid = t.keyValid
  err : s.err = t.err
  keyIn : s.keyIn = t.keyIn
  data : s.data = t.data
  k : s.k = t.k
  rk : s.rk = t.rk
  phase : s.phase = t.phase
  round : s.round = t.round
  pending : s.pending = t.pending
  answers : s.answers = t.answers
  resets : s.resets = t.resets

end Sys2Proof.Safety
end

