-- ==== Sys2Proof/Certificates/Slice0/Obligations.lean ====
section
/-! DEFINITION. The statements for the provers, one `def Obligations.<Name> : Prop` each. OBLIGATIONS.json gives for
each its title, its basis and the rules of spec/ it formalises. -/

open Sys2Proof Sys2Proof.Machine Sys2Proof.Safety

/-! ### Encoding -/

/-- Decoding the encoding of a well-formed instruction gives it back, with every operand (spec/30_encoding.md). -/
def Obligations.DecodeEncodeRoundTrip : Prop :=
  ∀ i : Instr, i.wf = true → decode (encode i) = i

/-- Every CTRL word, every 40-bit record and every phase code is the encoding of what it decodes to, and whatever is
decoded is well formed. -/
def Obligations.EncodeDecodeRoundTrip : Prop :=
  (∀ v : Word, encode (decodeCtrl v) = .ctrl v) ∧
  (∀ r : BitVec 40, encode (decodeRecord r) = .txn (.record r)) ∧
  (∀ p : BitVec 5, encode (decodePhase p) = .phase p) ∧
  (∀ c : Code, (decode c).wf = true)

/-- In each format the row of the decoded instruction is the first row of the opcode table that the word matches
(spec/30_encoding.md, "the first row that matches decides"). -/
def Obligations.FirstMatchingRowDecides : Prop :=
  (∀ v : Word, firstMatch ctrlRows v.toNat = some (decodeCtrl v).row) ∧
  (∀ r : BitVec 40, firstMatch txnRows r.toNat = some (decodeRecord r).row) ∧
  (∀ p : BitVec 5, (decodePhase p).row.matchesWord p.toNat = true ∧ (decodePhase p).row.mask = 0x1F)

/-- R55: an access is admitted, that is decoded to a register access, exactly when it is 32 bits wide, its offset is a
multiple of 4 and its offset is in 0x00..0x3C; any other access stops with its named refusal. The offset of a bus
access is its address less BASE. -/
def Obligations.AdmissionRule : Prop :=
  ∀ (write : Bool) (addr width : Nat) (v : Word) (s : State),
    (∀ off : Nat, addr = Config.base + off → width = 32 → off % 4 = 0 → off ≤ 0x3C →
      ∃ r : Reg, offsetOf r = BitVec.ofNat 6 off ∧ decodeAccess (.bus write addr width v) = regInstr write r v) ∧
    ((addr < Config.base ∨ width ≠ 32 ∨ (addr - Config.base) % 4 ≠ 0 ∨ 0x3C < addr - Config.base) →
      exec (decodeAccess (.bus write addr width v)) s =
        .refused (.unadmittedAccess ((addr : Int) - (Config.base : Int)) width))

/-- R75 with R55: a record with bit 39 set or OFF[1:0] ≠ 0 is refused, with its offset and 32 bits as the access's; and
UNADMITTED refuses whatever access it carries, on every path. -/
def Obligations.UnadmittedIsRefused : Prop :=
  (∀ (b39 w : BitVec 1) (off : BitVec 6) (v : Word) (s : State), (b39 = 1 ∨ off.extractLsb' 0 2 ≠ 0) →
    exec (decodeRecord (record b39 w off v)) s = .refused (.unadmittedAccess off.toNat 32)) ∧
  (∀ (a : HostAccess) (s : State),
    exec (.unadmitted a) s = .refused (.unadmittedAccess (accessOffset a) (accessWidth a)))

/-- Words written out bit by bit from the encodings of R70, R75 and R78 decode to what they stand for. -/
def Obligations.WrittenOutWordsDecode : Prop :=
  decodeTableWord 32 0b00000000000000000000000000000001 = some .setKey ∧
  decodeTableWord 32 0b00000000000000000000000000000010 = some .encrypt ∧
  decodeTableWord 32 0b11111111111111111111111111111100 = some (.nop 0x3FFFFFFF) ∧
  decodeTableWord 32 0b00000000000000000000000000000101 = some (.reject 5) ∧
  decodeTableWord 40 0x4000000002 = some (.wrCtrl 2) ∧
  decodeTableWord 40 0x5016157E2B = some (.wrKey 0 0x16157E2B) ∧
  decodeTableWord 40 0x2C00000000 = some (.rdData 3 0) ∧
  decodeTableWord 8 0b00001011 = some .subDecoy ∧
  decodeTableWord 8 0b00010100 = some .reservedPhase14

/-- R78: the phase codes and the micro-operations they name. Each reserved code, and each row of a reserved code, faults
with `ReservedPhase`. -/
def Obligations.PhaseCodeTable : Prop :=
  decodePhase 0x00 = .idle ∧
  [0x01, 0x02, 0x03, 0x04, 0x05, 0x06, 0x07, 0x08, 0x09, 0x0A, 0x0B, 0x0C, 0x0D, 0x0E, 0x0F, 0x10, 0x11, 0x12,
    0x13].map decodePhase =
    [.kexp, .seed, .genmask, .buildSbox, .rkFinal, .ghostInit, .rkMask, .r0Remask, .arkDecoy, .subUniform, .subDecoy,
     .shift, .remaskMc, .mix, .ark, .ghostUnmask, .ghostMix, .finalArk, .cleanup] ∧
  (∀ (p : BitVec 5) (s : State), 0x14 ≤ p → exec (decodePhase p) s = .fault (.reservedPhase p s.round)) ∧
  (∀ s : State,
    exec .reservedPhase14 s = .fault (.reservedPhase 0x14 s.round) ∧
    exec .reservedPhase15 s = .fault (.reservedPhase 0x15 s.round) ∧
    exec .reservedPhase16 s = .fault (.reservedPhase 0x16 s.round) ∧
    exec .reservedPhase17 s = .fault (.reservedPhase 0x17 s.round) ∧
    exec .reservedPhase18 s = .fault (.reservedPhase 0x18 s.round) ∧
    exec .reservedPhase19 s = .fault (.reservedPhase 0x19 s.round) ∧
    exec .reservedPhase1A s = .fault (.reservedPhase 0x1A s.round) ∧
    exec .reservedPhase1B s = .fault (.reservedPhase 0x1B s.round) ∧
    exec .reservedPhase1C s = .fault (.reservedPhase 0x1C s.round) ∧
    exec .reservedPhase1D s = .fault (.reservedPhase 0x1D s.round) ∧
    exec .reservedPhase1E s = .fault (.reservedPhase 0x1E s.round) ∧
    exec .reservedPhase1F s = .fault (.reservedPhase 0x1F s.round))

/-! ### The step, the two agents and reset -/

/-- A step runs the decoded instruction. While PHASE ≠ IDLE it is the micro-operation PHASE names; while PHASE = IDLE
it is the host's oldest pending transaction, which leaves the pending list; with nothing pending it is IDLE, which
completes and changes nothing (the model's choice, log entry 4). The reset line counts the step (the model's choice, log
entry 5). -/
def Obligations.StepRunsTheDecodedInstruction : Prop :=
  ∀ s : State, ¬ ResetDue s →
    (s.phase ≠ Phase.idle → step s = exec (decodePhase s.phase) { s with resets := (resetLine s.resets).2 }) ∧
    (∀ (a : HostAccess) (rest : List HostAccess), s.phase = Phase.idle → s.pending = a :: rest →
      step s = exec (decodeAccess a) { s with pending := rest, resets := (resetLine s.resets).2 }) ∧
    (s.phase = Phase.idle → s.pending = [] → step s = exec .idle { s with resets := (resetLine s.resets).2 }) ∧
    ∀ u : State, exec .idle u = .next u

/-- A word of the opcode table placed by `withFetchWord` is what the next step runs: a record as it is, and a command
word through a write to CTRL, which has the effect of the command's own row. -/
def Obligations.FetchWordRunsNext : Prop :=
  ∀ s : State,
    (∀ r : BitVec 40, step (s.withFetchWord 40 r.toNat) =
      exec (decodeRecord r) { s with phase := Phase.idle, round := 0, resets := [] }) ∧
    (∀ v : Word, step (s.withFetchWord 32 v.toNat) =
      exec (decodeCtrl v) { s with phase := Phase.idle, round := 0, resets := [] }) ∧
    (∀ p : BitVec 5, p ≠ Phase.idle → step (s.withFetchWord 8 p.toNat) =
      exec (decodePhase p) { s with phase := p, round := firstRound p, resets := [] }) ∧
    step (s.withFetchWord 8 0) = exec .idle { s with phase := Phase.idle, round := 0, resets := [], pending := [] }

/-- R180: while PHASE ≠ IDLE a step that goes on leaves the host's transactions pending, in their order, and answers
none; while PHASE = IDLE a step takes exactly the oldest. A reset leaves the host's side and the mask source as they are
(the model's choice, log entry 5). -/
def Obligations.BusyHoldsTheHost : Prop :=
  ∀ s t : State, step s = .next t →
    (s.phase ≠ Phase.idle → t.pending = s.pending ∧ t.answers = s.answers) ∧
    (s.phase = Phase.idle → ¬ ResetDue s →
      t.pending = s.pending.tail ∧ ∃ l, t.answers = s.answers ++ l ∧ l.length ≤ 1) ∧
    (ResetDue s → t.pending = s.pending ∧ t.answers = s.answers ∧ t.source = s.source)

/-- R220 and R221: the values the spec gives the state after reset; and a reset at a step boundary, whatever PHASE is,
answers a state with all of them, so no micro-operation of the command in progress is performed. -/
def Obligations.ResetValuesAndAbandonment : Prop :=
  (State.reset.keyValid = false ∧ State.reset.err = 0 ∧
    (∀ b : Fin 16, State.reset.keyIn[b] = 0 ∧ State.reset.data[b] = 0 ∧ State.reset.ghost[b] = 0) ∧
    State.reset.phase = 0x00 ∧ State.reset.round = 0) ∧
  ∀ s : State, ResetDue s → ∃ t, step s = .next t ∧
    t.keyValid = false ∧ t.err = 0 ∧ t.keyIn = zeroBlock ∧ t.data = zeroBlock ∧ t.ghost = zeroBlock ∧
    t.phase = Phase.idle ∧ t.round = 0

/-! ### Commands -/

/-- R185 and R201: the outcome of a CTRL write by the three fields of the word, in the order the tests are made. Each
case says the whole next state. -/
def Obligations.CtrlWriteDecides : Prop :=
  ∀ (v : Word) (s : State),
    (v.toNat % 4 = 0 → exec (.wrCtrl v) s = .next s) ∧
    ((v.toNat % 4 = 3 ∨ (v.toNat % 4 ≠ 0 ∧ (v.toNat / 4 % 4 ≠ 0 ∨ v.toNat / 16 ≠ 0))) →
      exec (.wrCtrl v) s = .next { s with err := 1 }) ∧
    (v = 1 → exec (.wrCtrl v) s = .next { s with err := 0, phase := 0x01, round := 0 }) ∧
    (v = 2 → s.keyValid = false → exec (.wrCtrl v) s = .next { s with err := 1 }) ∧
    (v = 2 → s.keyValid = true → exec (.wrCtrl v) s = .next { s with err := 0, phase := 0x02, round := 0 })

/-- R74 and R185 agree: a write of a word to CTRL has the effect of the command that R74's map takes for it. -/
def Obligations.CtrlWriteFollowsTheMap : Prop :=
  ∀ (v : Word) (s : State), exec (.wrCtrl v) s = exec (decodeCtrl v) s

/-- R186: a NOP, which is any word with CMD = 0b00, completes with no effect. -/
def Obligations.NopChangesNothing : Prop :=
  (∀ (hi : BitVec 30) (s : State), exec (.nop hi) s = .next s) ∧
  (∀ v : Word, v.toNat % 4 = 0 → decodeCtrl v = .nop (v.extractLsb' 2 30))

/-- R187: SET_KEY is accepted whatever the state: ERR becomes OK and the engine performs KEXP next, which completes
the command with KEY_VALID = 1 and leaves the core IDLE. -/
def Obligations.SetKeyAcceptedThenDone : Prop :=
  ∀ s : State, ∃ t, exec .setKey s = .next t ∧ t = { s with err := 0, phase := 0x01, round := 0 } ∧
    (¬ ResetDue t → ∃ u, step t = .next u ∧ u.keyValid = true ∧ u.err = 0 ∧ u.phase = Phase.idle ∧
      u.k = s.keyIn ∧ u.rk = keyExpand s.keyIn ∧ u.data = s.data ∧ u.pending = s.pending)

/-- R188: with KEY_VALID = 1 ENCRYPT is accepted and the engine performs SEED next; with KEY_VALID = 0 it sets ERR to
INVALID_INPUT and nothing else changes. -/
def Obligations.EncryptAcceptedOrRefused : Prop :=
  ∀ s : State,
    (s.keyValid = true → exec .encrypt s = .next { s with err := 0, phase := 0x02, round := 0 }) ∧
    (s.keyValid = false → exec .encrypt s = .next { s with err := 1 })

/-- R189: REJECT takes every word that is no NOP and neither 0x00000001 nor 0x00000002; it sets ERR to INVALID_INPUT
and changes nothing else. -/
def Obligations.RejectSetsErrOnly : Prop :=
  (∀ v : Word, v.toNat % 4 ≠ 0 → v ≠ 0x00000001 → v ≠ 0x00000002 → decodeCtrl v = .reject v) ∧
  ∀ (v : Word) (s : State), exec (.reject v) s = .next { s with err := 1 }

/-! ### Register accesses -/

/-- R183: the transaction with W = 1 and OFF = 0x10 + 4k is a KEY write; it stores `v[8n+7:8n]` in KEYIN[4k+n] and
changes nothing else, K and RK among it. -/
def Obligations.KeyWriteStoresFourBytes : Prop :=
  ∀ (k : Fin 4) (v : Word) (s : State), decodeRecord (record 0 1 (BitVec.ofNat 6 (0x10 + 4 * k.val)) v) = .wrKey k v ∧
    ∃ t, exec (.wrKey k v) s = .next t ∧ t = { s with keyIn := t.keyIn } ∧
    (∀ n : Fin 4, t.keyIn[4 * k.val + n.val].toNat = v.toNat / 2 ^ (8 * n.val) % 256) ∧
    (∀ b : Fin 16, b.val / 4 ≠ k.val → t.keyIn[b] = s.keyIn[b])

/-- R184: the transaction with W = 1 and OFF = 0x20 + 4k is a DATA write; it stores `v[8n+7:8n]` in DATA[4k+n] and
changes nothing else. -/
def Obligations.DataWriteStoresFourBytes : Prop :=
  ∀ (k : Fin 4) (v : Word) (s : State), decodeRecord (record 0 1 (BitVec.ofNat 6 (0x20 + 4 * k.val)) v) = .wrData k v ∧
    ∃ t, exec (.wrData k v) s = .next t ∧ t = { s with data := t.data } ∧
    (∀ n : Fin 4, t.data[4 * k.val + n.val].toNat = v.toNat / 2 ^ (8 * n.val) % 256) ∧
    (∀ b : Fin 16, b.val / 4 ≠ k.val → t.data[b] = s.data[b])

/-- R58 and R56: writes to STATUS and to the reserved offsets complete and change nothing. -/
def Obligations.IgnoredWrites : Prop :=
  ∀ (j : Fin 2) (k : Fin 4) (v : Word) (s : State),
    exec (.wrStatus v) s = .next s ∧ exec (.wrReservedLow j v) s = .next s ∧ exec (.wrReservedHigh k v) s = .next s

/-- R181: the read at each offset of the window, and what it returns: STATUS by the layout of R23 and DATA in the byte
order of R52. A read changes no state of the core: only the host's list of answers grows by the word. R75 gives VAL as
zero for a read; that a record with W = 0 is the read whatever its VAL is the model's choice (DEDUCED, log entry 6). -/
def Obligations.RegisterReads : Prop :=
  ∀ (j : Fin 2) (k : Fin 4) (v : Word) (s : State),
    (decodeRecord (record 0 0 0x00 v) = .rdCtrl v ∧ decodeRecord (record 0 0 0x04 v) = .rdStatus v ∧
      decodeRecord (record 0 0 (BitVec.ofNat 6 (0x08 + 4 * j.val)) v) = .rdReservedLow j v ∧
      decodeRecord (record 0 0 (BitVec.ofNat 6 (0x10 + 4 * k.val)) v) = .rdKey k v ∧
      decodeRecord (record 0 0 (BitVec.ofNat 6 (0x20 + 4 * k.val)) v) = .rdData k v ∧
      decodeRecord (record 0 0 (BitVec.ofNat 6 (0x30 + 4 * k.val)) v) = .rdReservedHigh k v) ∧
    exec (.rdCtrl v) s = .next { s with answers := s.answers ++ [0] } ∧
    exec (.rdKey k v) s = .next { s with answers := s.answers ++ [0] } ∧
    exec (.rdReservedLow j v) s = .next { s with answers := s.answers ++ [0] } ∧
    exec (.rdReservedHigh k v) s = .next { s with answers := s.answers ++ [0] } ∧
    (∃ w : Word, exec (.rdStatus v) s = .next { s with answers := s.answers ++ [w] } ∧
      w.getLsbD 0 = s.keyValid ∧ w.extractLsb' 1 2 = s.err ∧ w.extractLsb' 3 29 = 0) ∧
    (∃ w : Word, exec (.rdData k v) s = .next { s with answers := s.answers ++ [w] } ∧
      w.toNat = s.data[4 * k.val].toNat + 2 ^ 8 * s.data[4 * k.val + 1].toNat +
        2 ^ 16 * s.data[4 * k.val + 2].toNat + 2 ^ 24 * s.data[4 * k.val + 3].toNat)

/-- R229: a read after a write to the same register sees the written value for DATA, and zero for KEY and CTRL; a DATA
write leaves the other words as they were. -/
def Obligations.ReadAfterWrite : Prop :=
  ∀ (k j : Fin 4) (v : Word) (s : State),
    (∃ t, exec (.wrData k v) s = .next t ∧ exec (.rdData k 0) t = .next { t with answers := s.answers ++ [v] } ∧
      (j ≠ k → wordAt t.data j = wordAt s.data j)) ∧
    (∃ t, exec (.wrKey k v) s = .next t ∧ exec (.rdKey k 0) t = .next { t with answers := s.answers ++ [0] })

/-- R42 with R24 and R26: over every step that is no reset, only a CTRL write changes ERR, only KEXP changes
KEY_VALID, K and RK, and only a KEY write changes KEYIN. -/
def Obligations.OnlyTheirWritersChangeFlagsAndKeys : Prop :=
  ∀ s t : State, ¬ ResetDue s → step s = .next t →
    (t.err ≠ s.err → s.phase = Phase.idle ∧ ∃ a v, s.pending.head? = some a ∧ decodeAccess a = .wrCtrl v) ∧
    ((t.keyValid ≠ s.keyValid ∨ t.k ≠ s.k ∨ t.rk ≠ s.rk) → s.phase = Phase.kexp) ∧
    (t.keyIn ≠ s.keyIn → s.phase = Phase.idle ∧ ∃ a k v, s.pending.head? = some a ∧ decodeAccess a = .wrKey k v)

/-! ### The key scheduler -/

/-- R112: KEXP copies KEYIN to K, writes the expansion to RK, sets KEY_VALID and returns to IDLE; nothing else
changes. -/
def Obligations.KexpStoresKeyAndSchedule : Prop :=
  ∀ s : State, exec .kexp s =
    .next { s with k := s.keyIn, rk := keyExpand s.keyIn, keyValid := true, phase := Phase.idle, round := 0 }

/-- R111: there are words w[0..43] that begin with the key, follow the recurrence (rotated, substituted and XORed with
the round constant when i mod 4 = 0), and make up the blocks of the table. -/
def Obligations.KeyScheduleWords : Prop :=
  ∀ key : Block, ∃ w : Nat → Quad,
    (∀ i n : Fin 4, (w i.val)[n] = key[4 * i.val + n.val]) ∧
    (∀ i, 4 ≤ i → i ≤ 43 → i % 4 ≠ 0 → ∀ n : Fin 4, (w i)[n] = (w (i - 4))[n] ^^^ (w (i - 1))[n]) ∧
    (∀ i, 4 ≤ i → i ≤ 43 → i % 4 = 0 →
      (w i)[0] = (w (i - 4))[0] ^^^ (sbox (w (i - 1))[1] ^^^ rcon (i / 4)) ∧
      (w i)[1] = (w (i - 4))[1] ^^^ sbox (w (i - 1))[2] ∧
      (w i)[2] = (w (i - 4))[2] ^^^ sbox (w (i - 1))[3] ∧
      (w i)[3] = (w (i - 4))[3] ^^^ sbox (w (i - 1))[0]) ∧
    (∀ (r : Fin 11) (c n : Fin 4), stateAt (keyExpand key)[r] n c = (w (4 * r.val + c.val))[n])

/-- The spec's own inference in R113: RK[0] is the key, and each later block is made from the block before it and the
round constant alone. The round constants are the powers of 2 in GF(2^8) (R110). -/
def Obligations.KeyScheduleRecurrence : Prop :=
  (∀ key : Block, keyAt (keyExpand key) 0 = key ∧
    ∀ r < 10, keyAt (keyExpand key) (r + 1) = nextRoundKey (rcon (r + 1)) (keyAt (keyExpand key) r)) ∧
  rcon 1 = 1 ∧ ∀ t, 1 ≤ t → t < 10 → rcon (t + 1) = gmul 2 (rcon t)

/-! ### Tables and transforms -/

/-- R91: SBOX[x] is the affine transform of the inverse of x, with 0 mapped to 0 before the transform. -/
def Obligations.SboxIsAffineInverse : Prop :=
  ∀ x : Byte, ∃ b : Byte, (if x = 0 then b = 0 else gmul x b = 1) ∧
    sbox x = b ^^^ b.rotateLeft 1 ^^^ b.rotateLeft 2 ^^^ b.rotateLeft 3 ^^^ b.rotateLeft 4 ^^^ 0x63

/-- The spec's own inferences in R98 and R99. Column mixing is linear over XOR, so a state in MROW with true value v
becomes a state in MMIX with true value MixColumns(v) when the masks are derived as R124 says; and ShiftRows keeps the
domain of a state, whichever it is. -/
def Obligations.DomainsUnderMixAndShift : Prop :=
  (∀ a m : Quad, mixCol (xorQuad a m) = xorQuad (mixCol a) (mixCol m)) ∧
  (∀ (m : MaskVec) (v a : Block), mixMasks m = mixCol (rowMasks m) → InDomain m .mrow v a →
    InDomain m .mmix (mixColumns v) (mixColumns a)) ∧
  (∀ (m : MaskVec) (d : Domain) (v a : Block), InDomain m d v a → InDomain m d (shiftRows v) (shiftRows a))

/-- R130, R132 and R133: the bytes RemaskState writes, that it is its own inverse and order-blind, and that it moves a
state from the domain of the first quadruple to that of the second with the same true value. -/
def Obligations.RemaskMovesDomains : Prop :=
  ∀ (s v : Block) (a b : Quad),
    (∀ i j : Fin 4, stateAt (remaskState s a b) i j = stateAt s i j ^^^ (a[i] ^^^ b[i])) ∧
    remaskState (remaskState s a b) a b = s ∧ remaskState s b a = remaskState s a b ∧
    remaskState (maskedBy a v) a b = maskedBy b v

/-- The spec's own inferences in R127 and R129: the table builder's loop gives the table of R126 whatever it starts
from and in whatever order it takes the 256 bytes; and the table is a permutation of 0..255 for every pair of
masks. -/
def Obligations.TableBuilderLoop : Prop :=
  (∀ (m4 m5 : Byte) (order : List Byte) (sm : SubTable), order.Perm allBytes →
    buildSMLoop m4 m5 order sm = buildSM m4 m5) ∧
  ∀ m4 m5 : Byte, Function.Bijective (smAt (buildSM m4 m5))

/-- R122: the seed, the recurrence modulo 2^32 and the output byte of `lcgRef`, on numbers. -/
def Obligations.LcgRefRecurrence : Prop :=
  (∀ b : Block, ∃ w : Fin 4 → Word,
    (∀ k : Fin 4, (w k).toNat = b[4 * k.val].toNat + 2 ^ 8 * b[4 * k.val + 1].toNat +
      2 ^ 16 * b[4 * k.val + 2].toNat + 2 ^ 24 * b[4 * k.val + 3].toNat) ∧
    seedGen .lcgRef b = .lcg (w 0 ^^^ w 1 ^^^ w 2 ^^^ w 3)) ∧
  (∀ s : Word, ∃ s' : Word, s'.toNat = (1103515245 * s.toNat + 12345) % 2 ^ 32 ∧
    (draw (.lcg s)).2 = .lcg s' ∧ (draw (.lcg s)).1.toNat = s'.toNat / 2 ^ 16 % 256)

/-! ### Micro-operations: setup -/

/-- R141. -/
def Obligations.SeedWritesGen : Prop :=
  ∀ s : State, exec .seed s =
    .next { s with gen := seedGen s.source s.data, phase := Phase.genmask, round := 0 }

/-- R142 with R123 to R125: the 18 draws go to their slots in the order of R123, slots 6..9 are MixCol of slots 0..3
in all three vectors, and GEN is the state after 18 draws. -/
def Obligations.GenmaskDrawsInOrder : Prop :=
  ∀ s : State, ∃ t, exec .genmask s = .next t ∧
    t = { s with mask := t.mask, dm1 := t.dm1, dm2 := t.dm2, gen := genAfter 18 s.gen,
                 phase := Phase.buildSbox, round := 0 } ∧
    (t.mask[4] = drawnByte s.gen 1 ∧ t.dm1[4] = drawnByte s.gen 2 ∧ t.dm2[4] = drawnByte s.gen 3) ∧
    (t.mask[0] = drawnByte s.gen 4 ∧ t.dm1[0] = drawnByte s.gen 5 ∧ t.dm2[0] = drawnByte s.gen 6) ∧
    (t.mask[1] = drawnByte s.gen 7 ∧ t.dm1[1] = drawnByte s.gen 8 ∧ t.dm2[1] = drawnByte s.gen 9) ∧
    (t.mask[2] = drawnByte s.gen 10 ∧ t.dm1[2] = drawnByte s.gen 11 ∧ t.dm2[2] = drawnByte s.gen 12) ∧
    (t.mask[3] = drawnByte s.gen 13 ∧ t.dm1[3] = drawnByte s.gen 14 ∧ t.dm2[3] = drawnByte s.gen 15) ∧
    (t.dm1[5] = drawnByte s.gen 16 ∧ t.dm2[5] = drawnByte s.gen 17 ∧ t.mask[5] = drawnByte s.gen 18) ∧
    mixMasks t.mask = mixCol (rowMasks t.mask) ∧ mixMasks t.dm1 = mixCol (rowMasks t.dm1) ∧
    mixMasks t.dm2 = mixCol (rowMasks t.dm2)

/-- R143 with R126: every entry of SM; a byte v masked by MASK[4] looks up SBOX[v] masked by MASK[5]. -/
def Obligations.BuildSboxFillsTheTable : Prop :=
  ∀ s : State, ∃ t, exec .buildSbox s = .next t ∧ t = { s with sm := t.sm, phase := Phase.rkFinal, round := 0 } ∧
    (∀ y : Byte, smAt t.sm y = sbox (y ^^^ s.mask[4]) ^^^ s.mask[5]) ∧
    (∀ v : Byte, smAt t.sm (v ^^^ s.mask[4]) = sbox v ^^^ s.mask[5])

/-- R144: blocks 0..9 of RKM are unmasked copies, block 10 is RK[10] in domain MOUT. -/
def Obligations.RkFinalCopiesAndMasksLast : Prop :=
  ∀ s : State, ∃ t, exec .rkFinal s = .next t ∧ t = { s with rkm := t.rkm, phase := Phase.ghostInit, round := 0 } ∧
    (∀ r < 10, keyAt t.rkm r = keyAt s.rk r) ∧ InDomain s.mask .mout (keyAt s.rk 10) (keyAt t.rkm 10)

/-- R145. -/
def Obligations.GhostInitMasksTheBlock : Prop :=
  ∀ s : State, ∃ t, exec .ghostInit s = .next t ∧ t = { s with ghost := t.ghost, phase := Phase.rkMask, round := 0 } ∧
    ∀ i j : Fin 4, stateAt t.ghost i j = stateAt s.data i j ^^^ s.dm1[6 + i.val] ^^^ s.dm2[6 + i.val]

/-- R146: row i of blocks 0..9 is XORed with MASK[6+i] and MASK[4], and block 10 is not included. A block so masked,
added to a state in MMIX with true value v, gives a state in MIN with true value v ^ RK[r]. -/
def Obligations.RkMaskMasksTenBlocks : Prop :=
  ∀ s : State, ∃ t, exec .rkMask s = .next t ∧ t = { s with rkm := t.rkm, phase := Phase.r0Remask, round := 0 } ∧
    keyAt t.rkm 10 = keyAt s.rkm 10 ∧
    ∀ r < 10, (∀ i j : Fin 4, stateAt (keyAt t.rkm r) i j =
        stateAt (keyAt s.rkm r) i j ^^^ s.mask[6 + i.val] ^^^ s.mask[4]) ∧
      ∀ v a : Block, InDomain s.mask .mmix v a →
        InDomain s.mask .min (xorBlock v (keyAt s.rkm r)) (xorBlock a (keyAt t.rkm r))

/-! ### Micro-operations: rounds -/

/-- R147. -/
def Obligations.RoundZeroRemask : Prop :=
  ∀ s : State, ∃ t, exec .r0Remask s = .next t ∧ t = { s with data := t.data, phase := Phase.arkDecoy, round := 0 } ∧
    (∀ i j : Fin 4, stateAt t.data i j = stateAt s.data i j ^^^ s.mask[6 + i.val]) ∧
    InDomain s.mask .mmix s.data t.data

/-- R148, at every ROUND that `Next` lists for it: both states take the round key RKM[ROUND], and GHOST 0xA5 as well;
with a round key as R146 leaves it DATA goes from MMIX to MIN. -/
def Obligations.ArkDecoyAddsKeyToBoth : Prop :=
  ∀ s : State, s.round ≤ 9 → ∃ t, exec .arkDecoy s = .next t ∧
    t = { s with data := t.data, ghost := t.ghost, phase := subKind (s.round + 1), round := s.round + 1 } ∧
    (∀ b : Fin 16, t.data[b] = s.data[b] ^^^ (keyAt s.rkm s.round.toNat)[b] ∧
      t.ghost[b] = s.ghost[b] ^^^ (keyAt s.rkm s.round.toNat)[b] ^^^ 0xA5) ∧
    ∀ v key : Block, InDomain s.mask .mmix v s.data →
      keyAt s.rkm s.round.toNat = maskedBy (mixMasks s.mask) (maskedBy (uniformMask s.mask[4]) key) →
      InDomain s.mask .min (xorBlock v key) t.data

/-- R154, at every ROUND that `Next` lists for it: DATA takes the round key and GHOST is not touched. -/
def Obligations.ArkAddsKeyToData : Prop :=
  ∀ s : State, s.round ≤ 9 → ∃ t, exec .ark s = .next t ∧
    t = { s with data := t.data, phase := subKind (s.round + 1), round := s.round + 1 } ∧
    (∀ b : Fin 16, t.data[b] = s.data[b] ^^^ (keyAt s.rkm s.round.toNat)[b]) ∧
    ∀ v key : Block, InDomain s.mask .mmix v s.data →
      keyAt s.rkm s.round.toNat = maskedBy (mixMasks s.mask) (maskedBy (uniformMask s.mask[4]) key) →
      InDomain s.mask .min (xorBlock v key) t.data

/-- R149: both states go through SM; with a table as R126 has it DATA goes from MIN to MOUT with true value
SubBytes(v). -/
def Obligations.SubUniformLooksUpBoth : Prop :=
  ∀ s : State, ∃ t, exec .subUniform s = .next t ∧
    t = { s with data := t.data, ghost := t.ghost, phase := Phase.shift } ∧
    (∀ b : Fin 16, t.data[b] = smAt s.sm s.data[b] ∧ t.ghost[b] = smAt s.sm s.ghost[b]) ∧
    ∀ v : Block, s.sm = buildSM s.mask[4] s.mask[5] → InDomain s.mask .min v s.data →
      InDomain s.mask .mout (subBytes v) t.data

/-- R150: DATA goes through SM as in SUB_UNIFORM; GHOST at row i and column j is draw number 4i + j + 1 of the chain
from GEN; GEN is the state after 16 draws. -/
def Obligations.SubDecoyDrawsRowMajor : Prop :=
  ∀ s : State, ∃ t, exec .subDecoy s = .next t ∧
    t = { s with data := t.data, ghost := t.ghost, gen := genAfter 16 s.gen, phase := Phase.shift } ∧
    (∀ b : Fin 16, t.data[b] = smAt s.sm s.data[b]) ∧
    (∀ i j : Fin 4, stateAt t.ghost i j = drawnByte s.gen (4 * i.val + j.val + 1)) ∧
    ∀ v : Block, s.sm = buildSM s.mask[4] s.mask[5] → InDomain s.mask .min v s.data →
      InDomain s.mask .mout (subBytes v) t.data

/-- R151 and R155, with the flat indexing of R95: in every round 1..10, and at every ROUND that `Next` lists, both
states are rotated. -/
def Obligations.ShiftRotatesBoth : Prop :=
  ∀ s : State, s.round ≤ 10 → ∃ t, exec .shift s = .next t ∧
    t = { s with data := t.data, ghost := t.ghost,
                 phase := if s.round = 10 then Phase.ghostUnmask else Phase.remaskMc } ∧
    (∀ b : Fin 16,
      t.data[b] = s.data[4 * ((b.val / 4 + b.val % 4) % 4) + b.val % 4] ∧
      t.ghost[b] = s.ghost[4 * ((b.val / 4 + b.val % 4) % 4) + b.val % 4]) ∧
    ∀ v : Block, InDomain s.mask .mout v s.data → InDomain s.mask .mout (shiftRows v) t.data

/-- R152. -/
def Obligations.RemaskMcMovesBoth : Prop :=
  ∀ s : State, ∃ t, exec .remaskMc s = .next t ∧
    t = { s with data := t.data, ghost := t.ghost, phase := Phase.mix } ∧
    (∀ i j : Fin 4,
      stateAt t.data i j = stateAt s.data i j ^^^ s.mask[5] ^^^ s.mask[i.val] ∧
      stateAt t.ghost i j = stateAt s.ghost i j ^^^ s.dm2[5] ^^^ s.dm1[i.val]) ∧
    ∀ v : Block, InDomain s.mask .mout v s.data → InDomain s.mask .mrow v t.data

/-- R153 with R96, the matrix written with the field product: both states are mixed column by column. -/
def Obligations.MixMixesBoth : Prop :=
  ∀ s : State, ∃ t, exec .mix s = .next t ∧
    t = { s with data := t.data, ghost := t.ghost, phase := arkKind s.round } ∧
    (∀ (a b : Block), (a = s.data ∧ b = t.data) ∨ (a = s.ghost ∧ b = t.ghost) → ∀ j : Fin 4,
      stateAt b 0 j = gmul 2 (stateAt a 0 j) ^^^ gmul 3 (stateAt a 1 j) ^^^ stateAt a 2 j ^^^ stateAt a 3 j ∧
      stateAt b 1 j = stateAt a 0 j ^^^ gmul 2 (stateAt a 1 j) ^^^ gmul 3 (stateAt a 2 j) ^^^ stateAt a 3 j ∧
      stateAt b 2 j = stateAt a 0 j ^^^ stateAt a 1 j ^^^ gmul 2 (stateAt a 2 j) ^^^ gmul 3 (stateAt a 3 j) ∧
      stateAt b 3 j = gmul 3 (stateAt a 0 j) ^^^ stateAt a 1 j ^^^ stateAt a 2 j ^^^ gmul 2 (stateAt a 3 j)) ∧
    ∀ v : Block, mixMasks s.mask = mixCol (rowMasks s.mask) → InDomain s.mask .mrow v s.data →
      InDomain s.mask .mmix (mixColumns v) t.data

/-! ### Micro-operations: termination -/

/-- R157 and R158: GHOST_UNMASK XORs row i of GHOST with DM1[6+i] and DM2[6+i]; GHOST_MIX mixes the columns of GHOST.
Nothing else changes but PHASE and ROUND. -/
def Obligations.GhostTermination : Prop :=
  ∀ s : State,
    (∃ t, exec .ghostUnmask s = .next t ∧ t = { s with ghost := t.ghost, phase := Phase.ghostMix, round := 10 } ∧
      ∀ i j : Fin 4, stateAt t.ghost i j = stateAt s.ghost i j ^^^ s.dm1[6 + i.val] ^^^ s.dm2[6 + i.val]) ∧
    (∃ t, exec .ghostMix s = .next t ∧ t = { s with ghost := t.ghost, phase := Phase.finalArk, round := 10 } ∧
      ∀ j : Fin 4, column t.ghost j = mixCol (column s.ghost j))

/-- R159: DATA takes RKM[10]; with RKM[10] as R144 leaves it DATA goes from MOUT with true value v to v ^ RK[10]
unmasked. -/
def Obligations.FinalArkUnmasks : Prop :=
  ∀ s : State, ∃ t, exec .finalArk s = .next t ∧ t = { s with data := t.data, phase := Phase.cleanup, round := 10 } ∧
    (∀ b : Fin 16, t.data[b] = s.data[b] ^^^ (keyAt s.rkm 10)[b]) ∧
    ∀ v key : Block, InDomain s.mask .mout v s.data → InDomain s.mask .mout key (keyAt s.rkm 10) →
      t.data = xorBlock v key

/-- R160: GHOST becomes zero, the engine returns to IDLE and ROUND to 0; nothing else changes. -/
def Obligations.CleanupClearsGhost : Prop :=
  ∀ s : State, ∃ t, exec .cleanup s = .next t ∧ t = { s with ghost := t.ghost, phase := 0x00, round := 0 } ∧
    ∀ b : Fin 16, t.ghost[b] = 0x00

/-- R162: a key addition or a row shift at a ROUND that `Next` does not list faults with `ReservedPhase`. -/
def Obligations.UnlistedPairsFault : Prop :=
  ∀ s : State,
    (10 ≤ s.round → exec .arkDecoy s = .fault (.reservedPhase Phase.arkDecoy s.round) ∧
      exec .ark s = .fault (.reservedPhase Phase.ark s.round)) ∧
    (11 ≤ s.round → exec .shift s = .fault (.reservedPhase Phase.shift s.round))

/-! ### Properties of the whole machine -/

/-- R140 and R167: from (SEED, 0), whatever the key, the block, the masks and the draws, the engine performs the 59
pairs of the schedule in order and is IDLE after them. -/
def Obligations.EncryptFollowsTheSchedule : Prop :=
  ∀ s : State, AtEncryptStart s → Undisturbed s →
    encryptSchedule.length = 59 ∧
    (∀ n, ∀ h : n < encryptSchedule.length, ∃ t : State, Host.Core.run core n s = .next t ∧
      (t.phase, t.round) = encryptSchedule[n]) ∧
    ∃ t : State, Host.Core.run core 59 s = .next t ∧ t.phase = Phase.idle ∧ t.round = 0

/-- R164, which the spec marks as its own inference. An accepted ENCRYPT meets the invariant with the plaintext in
DATA; and from every state that meets it, a step that is no reset goes on, at its end DATA is in the domain of R164's
table with the table's true value, and the invariant holds again unless the engine is IDLE, which is after CLEANUP
only. -/
def Obligations.DomainInvariantIsKept : Prop :=
  (∀ s : State, AtEncryptStart s → EncryptInv s.data s) ∧
  ∀ (pt : Block) (s : State), EncryptInv pt s → ¬ ResetDue s → ∃ t, step s = .next t ∧
    InDomain t.mask (domainAfter s.phase) (trueAfter s.rk pt s.phase s.round) t.data ∧ t.rk = s.rk ∧
    (s.phase ≠ Phase.cleanup → EncryptInv pt t) ∧ (s.phase = Phase.cleanup → t.phase = Phase.idle)

/-- R165: with every byte of MASK nonzero, at the boundaries from R0_REMASK to GHOST_MIX, which are those where the
next micro-operation is ARK_DECOY (0x09) to FINAL_ARK (0x12), every byte of DATA differs from the true value. -/
def Obligations.NoLeakWithNonzeroMasks : Prop :=
  ∀ (pt : Block) (s : State), EncryptInv pt s → (∀ k : Fin 10, s.mask[k] ≠ 0) →
    Phase.arkDecoy.toNat ≤ s.phase.toNat → s.phase.toNat ≤ Phase.finalArk.toNat →
    ∀ b : Fin 16, s.data[b] ≠ (trueBefore s.rk pt s.phase s.round)[b]

/-- R170: when the engine returns to IDLE, DATA = AES-128-Encrypt(K, P) with K = RK[0], where RK is the expansion of
that key, as it is in every state with a key (MachineInv). -/
def Obligations.EncryptComputesAes128 : Prop :=
  ∀ s : State, AtEncryptStart s → Undisturbed s → s.rk = keyExpand (keyAt s.rk 0) →
    ∃ t : State, Host.Core.run core 59 s = .next t ∧ t.phase = Phase.idle ∧ t.data = aes128 (keyAt s.rk 0) s.data

/-- R171: two encryptions of the same block under the same round keys end with the same DATA, for every mask source and
whatever the other stores held. -/
def Obligations.CiphertextIndependentOfMasks : Prop :=
  ∀ s t : State, AtEncryptStart s → AtEncryptStart t → Undisturbed s → Undisturbed t →
    s.rk = t.rk → s.data = t.data →
    ∃ s' t' : State, Host.Core.run core 59 s = .next s' ∧ Host.Core.run core 59 t = .next t' ∧ s'.data = t'.data

/-- R172: what ENCRYPT leaves behind. The three mask vectors are those after GENMASK, its second step; GEN is the state after 82 draws of the chain seeded by the block (R168). -/
def Obligations.WhatEncryptLeaves : Prop :=
  ∀ s : State, AtEncryptStart s → Undisturbed s → ∃ t : State, Host.Core.run core 59 s = .next t ∧
    t.data = cipher s.rk s.data ∧ t.ghost = zeroBlock ∧
    (∃ u : State, Host.Core.run core 2 s = .next u ∧ t.mask = u.mask ∧ t.dm1 = u.dm1 ∧ t.dm2 = u.dm2) ∧
    t.sm = buildSM t.mask[4] t.mask[5] ∧
    (∀ r < 10, keyAt t.rkm r = maskedBy (mixMasks t.mask) (maskedBy (uniformMask t.mask[4]) (keyAt s.rk r))) ∧
    keyAt t.rkm 10 = maskedBy (uniformMask t.mask[5]) (keyAt s.rk 10) ∧
    t.gen = genAfter 82 (seedGen s.source s.data) ∧
    t.k = s.k ∧ t.rk = s.rk ∧ t.keyIn = s.keyIn ∧ t.keyValid = s.keyValid ∧ t.err = s.err

/-- R190 and R228: a CTRL write of ENCRYPT, as the record of R75, with a key in place is one action to the host. After
the write's step and 59 engine steps the core is IDLE with the ciphertext in DATA and ERR = OK; the host's later
transactions are all still pending and nothing was answered. -/
def Obligations.EncryptIsAtomicToTheHost : Prop :=
  ∀ (s : State) (rest : List HostAccess), s.phase = Phase.idle → s.keyValid = true → Undisturbed s →
    s.pending = .record 0x4000000002 :: rest →
    ∃ t : State, Host.Core.run core 60 s = .next t ∧ t.phase = Phase.idle ∧ t.round = 0 ∧ t.err = 0 ∧
      t.keyValid = true ∧ t.data = cipher s.rk s.data ∧ t.ghost = zeroBlock ∧ t.keyIn = s.keyIn ∧ t.k = s.k ∧
      t.rk = s.rk ∧ t.pending = rest ∧ t.answers = s.answers

/-- The state after reset meets the machine's invariant. -/
def Obligations.ResetMeetsMachineInvariant : Prop := MachineInv State.reset

/-- From every state that meets the machine's invariant a step keeps it, resets included, and no step faults: a run
never reaches a reserved phase or an unlisted pair (R78, R162). -/
def Obligations.MachineInvariantIsKept : Prop :=
  ∀ s : State, MachineInv s → (∀ t, step s = .next t → MachineInv t) ∧ (∀ f, step s ≠ .fault f)

/-- R43 and R171: two IDLE states that agree for the host answer it alike for ever, whatever the mask stores, SM, RKM,
GHOST, GEN and the mask source are. After any number of steps both stop alike or both have given the same answers. -/
def Obligations.HostSeesNoMasks : Prop :=
  ∀ (n : Nat) (s t : State), HostAgree s t → s.phase = Phase.idle →
    match Host.Core.run core n s, Host.Core.run core n t with
    | .next (s' : State), .next (t' : State) =>
      s'.answers = t'.answers ∧ s'.phase = t'.phase ∧ s'.round = t'.round ∧ s'.pending = t'.pending
    | .fault f, .fault g => f = g
    | .refused f, .refused g => f = g
    | _, _ => False
end

