-- ==== Sys2Proof/Laws/State.lean ====
section
/-! SUPPORT. One lemma for each field of the state under each named update of Machine/Ops.lean, true by rfl, so that no
proof unfolds a record update. -/

namespace Sys2Proof.Machine.State

variable (s : State)

section
variable (e : BitVec 2)
@[simp] theorem setErr_keyValid : (s.setErr e).keyValid = s.keyValid := rfl
@[simp] theorem setErr_err : (s.setErr e).err = e := rfl
@[simp] theorem setErr_keyIn : (s.setErr e).keyIn = s.keyIn := rfl
@[simp] theorem setErr_data : (s.setErr e).data = s.data := rfl
@[simp] theorem setErr_k : (s.setErr e).k = s.k := rfl
@[simp] theorem setErr_rk : (s.setErr e).rk = s.rk := rfl
@[simp] theorem setErr_rkm : (s.setErr e).rkm = s.rkm := rfl
@[simp] theorem setErr_mask : (s.setErr e).mask = s.mask := rfl
@[simp] theorem setErr_dm1 : (s.setErr e).dm1 = s.dm1 := rfl
@[simp] theorem setErr_dm2 : (s.setErr e).dm2 = s.dm2 := rfl
@[simp] theorem setErr_sm : (s.setErr e).sm = s.sm := rfl
@[simp] theorem setErr_ghost : (s.setErr e).ghost = s.ghost := rfl
@[simp] theorem setErr_gen : (s.setErr e).gen = s.gen := rfl
@[simp] theorem setErr_phase : (s.setErr e).phase = s.phase := rfl
@[simp] theorem setErr_round : (s.setErr e).round = s.round := rfl
@[simp] theorem setErr_source : (s.setErr e).source = s.source := rfl
@[simp] theorem setErr_pending : (s.setErr e).pending = s.pending := rfl
@[simp] theorem setErr_answers : (s.setErr e).answers = s.answers := rfl
@[simp] theorem setErr_resets : (s.setErr e).resets = s.resets := rfl
end

section
variable (b : Block)
@[simp] theorem setKeyIn_keyValid : (s.setKeyIn b).keyValid = s.keyValid := rfl
@[simp] theorem setKeyIn_err : (s.setKeyIn b).err = s.err := rfl
@[simp] theorem setKeyIn_keyIn : (s.setKeyIn b).keyIn = b := rfl
@[simp] theorem setKeyIn_data : (s.setKeyIn b).data = s.data := rfl
@[simp] theorem setKeyIn_k : (s.setKeyIn b).k = s.k := rfl
@[simp] theorem setKeyIn_rk : (s.setKeyIn b).rk = s.rk := rfl
@[simp] theorem setKeyIn_rkm : (s.setKeyIn b).rkm = s.rkm := rfl
@[simp] theorem setKeyIn_mask : (s.setKeyIn b).mask = s.mask := rfl
@[simp] theorem setKeyIn_dm1 : (s.setKeyIn b).dm1 = s.dm1 := rfl
@[simp] theorem setKeyIn_dm2 : (s.setKeyIn b).dm2 = s.dm2 := rfl
@[simp] theorem setKeyIn_sm : (s.setKeyIn b).sm = s.sm := rfl
@[simp] theorem setKeyIn_ghost : (s.setKeyIn b).ghost = s.ghost := rfl
@[simp] theorem setKeyIn_gen : (s.setKeyIn b).gen = s.gen := rfl
@[simp] theorem setKeyIn_phase : (s.setKeyIn b).phase = s.phase := rfl
@[simp] theorem setKeyIn_round : (s.setKeyIn b).round = s.round := rfl
@[simp] theorem setKeyIn_source : (s.setKeyIn b).source = s.source := rfl
@[simp] theorem setKeyIn_pending : (s.setKeyIn b).pending = s.pending := rfl
@[simp] theorem setKeyIn_answers : (s.setKeyIn b).answers = s.answers := rfl
@[simp] theorem setKeyIn_resets : (s.setKeyIn b).resets = s.resets := rfl
end

section
variable (b : Block)
@[simp] theorem setData_keyValid : (s.setData b).keyValid = s.keyValid := rfl
@[simp] theorem setData_err : (s.setData b).err = s.err := rfl
@[simp] theorem setData_keyIn : (s.setData b).keyIn = s.keyIn := rfl
@[simp] theorem setData_data : (s.setData b).data = b := rfl
@[simp] theorem setData_k : (s.setData b).k = s.k := rfl
@[simp] theorem setData_rk : (s.setData b).rk = s.rk := rfl
@[simp] theorem setData_rkm : (s.setData b).rkm = s.rkm := rfl
@[simp] theorem setData_mask : (s.setData b).mask = s.mask := rfl
@[simp] theorem setData_dm1 : (s.setData b).dm1 = s.dm1 := rfl
@[simp] theorem setData_dm2 : (s.setData b).dm2 = s.dm2 := rfl
@[simp] theorem setData_sm : (s.setData b).sm = s.sm := rfl
@[simp] theorem setData_ghost : (s.setData b).ghost = s.ghost := rfl
@[simp] theorem setData_gen : (s.setData b).gen = s.gen := rfl
@[simp] theorem setData_phase : (s.setData b).phase = s.phase := rfl
@[simp] theorem setData_round : (s.setData b).round = s.round := rfl
@[simp] theorem setData_source : (s.setData b).source = s.source := rfl
@[simp] theorem setData_pending : (s.setData b).pending = s.pending := rfl
@[simp] theorem setData_answers : (s.setData b).answers = s.answers := rfl
@[simp] theorem setData_resets : (s.setData b).resets = s.resets := rfl
end

section
variable (b : Block)
@[simp] theorem setGhost_keyValid : (s.setGhost b).keyValid = s.keyValid := rfl
@[simp] theorem setGhost_err : (s.setGhost b).err = s.err := rfl
@[simp] theorem setGhost_keyIn : (s.setGhost b).keyIn = s.keyIn := rfl
@[simp] theorem setGhost_data : (s.setGhost b).data = s.data := rfl
@[simp] theorem setGhost_k : (s.setGhost b).k = s.k := rfl
@[simp] theorem setGhost_rk : (s.setGhost b).rk = s.rk := rfl
@[simp] theorem setGhost_rkm : (s.setGhost b).rkm = s.rkm := rfl
@[simp] theorem setGhost_mask : (s.setGhost b).mask = s.mask := rfl
@[simp] theorem setGhost_dm1 : (s.setGhost b).dm1 = s.dm1 := rfl
@[simp] theorem setGhost_dm2 : (s.setGhost b).dm2 = s.dm2 := rfl
@[simp] theorem setGhost_sm : (s.setGhost b).sm = s.sm := rfl
@[simp] theorem setGhost_ghost : (s.setGhost b).ghost = b := rfl
@[simp] theorem setGhost_gen : (s.setGhost b).gen = s.gen := rfl
@[simp] theorem setGhost_phase : (s.setGhost b).phase = s.phase := rfl
@[simp] theorem setGhost_round : (s.setGhost b).round = s.round := rfl
@[simp] theorem setGhost_source : (s.setGhost b).source = s.source := rfl
@[simp] theorem setGhost_pending : (s.setGhost b).pending = s.pending := rfl
@[simp] theorem setGhost_answers : (s.setGhost b).answers = s.answers := rfl
@[simp] theorem setGhost_resets : (s.setGhost b).resets = s.resets := rfl
end

section
variable (t : KeyTable)
@[simp] theorem setRkm_keyValid : (s.setRkm t).keyValid = s.keyValid := rfl
@[simp] theorem setRkm_err : (s.setRkm t).err = s.err := rfl
@[simp] theorem setRkm_keyIn : (s.setRkm t).keyIn = s.keyIn := rfl
@[simp] theorem setRkm_data : (s.setRkm t).data = s.data := rfl
@[simp] theorem setRkm_k : (s.setRkm t).k = s.k := rfl
@[simp] theorem setRkm_rk : (s.setRkm t).rk = s.rk := rfl
@[simp] theorem setRkm_rkm : (s.setRkm t).rkm = t := rfl
@[simp] theorem setRkm_mask : (s.setRkm t).mask = s.mask := rfl
@[simp] theorem setRkm_dm1 : (s.setRkm t).dm1 = s.dm1 := rfl
@[simp] theorem setRkm_dm2 : (s.setRkm t).dm2 = s.dm2 := rfl
@[simp] theorem setRkm_sm : (s.setRkm t).sm = s.sm := rfl
@[simp] theorem setRkm_ghost : (s.setRkm t).ghost = s.ghost := rfl
@[simp] theorem setRkm_gen : (s.setRkm t).gen = s.gen := rfl
@[simp] theorem setRkm_phase : (s.setRkm t).phase = s.phase := rfl
@[simp] theorem setRkm_round : (s.setRkm t).round = s.round := rfl
@[simp] theorem setRkm_source : (s.setRkm t).source = s.source := rfl
@[simp] theorem setRkm_pending : (s.setRkm t).pending = s.pending := rfl
@[simp] theorem setRkm_answers : (s.setRkm t).answers = s.answers := rfl
@[simp] theorem setRkm_resets : (s.setRkm t).resets = s.resets := rfl
end

section
variable (t : SubTable)
@[simp] theorem setSm_keyValid : (s.setSm t).keyValid = s.keyValid := rfl
@[simp] theorem setSm_err : (s.setSm t).err = s.err := rfl
@[simp] theorem setSm_keyIn : (s.setSm t).keyIn = s.keyIn := rfl
@[simp] theorem setSm_data : (s.setSm t).data = s.data := rfl
@[simp] theorem setSm_k : (s.setSm t).k = s.k := rfl
@[simp] theorem setSm_rk : (s.setSm t).rk = s.rk := rfl
@[simp] theorem setSm_rkm : (s.setSm t).rkm = s.rkm := rfl
@[simp] theorem setSm_mask : (s.setSm t).mask = s.mask := rfl
@[simp] theorem setSm_dm1 : (s.setSm t).dm1 = s.dm1 := rfl
@[simp] theorem setSm_dm2 : (s.setSm t).dm2 = s.dm2 := rfl
@[simp] theorem setSm_sm : (s.setSm t).sm = t := rfl
@[simp] theorem setSm_ghost : (s.setSm t).ghost = s.ghost := rfl
@[simp] theorem setSm_gen : (s.setSm t).gen = s.gen := rfl
@[simp] theorem setSm_phase : (s.setSm t).phase = s.phase := rfl
@[simp] theorem setSm_round : (s.setSm t).round = s.round := rfl
@[simp] theorem setSm_source : (s.setSm t).source = s.source := rfl
@[simp] theorem setSm_pending : (s.setSm t).pending = s.pending := rfl
@[simp] theorem setSm_answers : (s.setSm t).answers = s.answers := rfl
@[simp] theorem setSm_resets : (s.setSm t).resets = s.resets := rfl
end

section
variable (g : GenState)
@[simp] theorem setGen_keyValid : (s.setGen g).keyValid = s.keyValid := rfl
@[simp] theorem setGen_err : (s.setGen g).err = s.err := rfl
@[simp] theorem setGen_keyIn : (s.setGen g).keyIn = s.keyIn := rfl
@[simp] theorem setGen_data : (s.setGen g).data = s.data := rfl
@[simp] theorem setGen_k : (s.setGen g).k = s.k := rfl
@[simp] theorem setGen_rk : (s.setGen g).rk = s.rk := rfl
@[simp] theorem setGen_rkm : (s.setGen g).rkm = s.rkm := rfl
@[simp] theorem setGen_mask : (s.setGen g).mask = s.mask := rfl
@[simp] theorem setGen_dm1 : (s.setGen g).dm1 = s.dm1 := rfl
@[simp] theorem setGen_dm2 : (s.setGen g).dm2 = s.dm2 := rfl
@[simp] theorem setGen_sm : (s.setGen g).sm = s.sm := rfl
@[simp] theorem setGen_ghost : (s.setGen g).ghost = s.ghost := rfl
@[simp] theorem setGen_gen : (s.setGen g).gen = g := rfl
@[simp] theorem setGen_phase : (s.setGen g).phase = s.phase := rfl
@[simp] theorem setGen_round : (s.setGen g).round = s.round := rfl
@[simp] theorem setGen_source : (s.setGen g).source = s.source := rfl
@[simp] theorem setGen_pending : (s.setGen g).pending = s.pending := rfl
@[simp] theorem setGen_answers : (s.setGen g).answers = s.answers := rfl
@[simp] theorem setGen_resets : (s.setGen g).resets = s.resets := rfl
end

section
variable (key : Block) (table : KeyTable)
@[simp] theorem setKey_keyValid : (s.setKey key table).keyValid = true := rfl
@[simp] theorem setKey_err : (s.setKey key table).err = s.err := rfl
@[simp] theorem setKey_keyIn : (s.setKey key table).keyIn = s.keyIn := rfl
@[simp] theorem setKey_data : (s.setKey key table).data = s.data := rfl
@[simp] theorem setKey_k : (s.setKey key table).k = key := rfl
@[simp] theorem setKey_rk : (s.setKey key table).rk = table := rfl
@[simp] theorem setKey_rkm : (s.setKey key table).rkm = s.rkm := rfl
@[simp] theorem setKey_mask : (s.setKey key table).mask = s.mask := rfl
@[simp] theorem setKey_dm1 : (s.setKey key table).dm1 = s.dm1 := rfl
@[simp] theorem setKey_dm2 : (s.setKey key table).dm2 = s.dm2 := rfl
@[simp] theorem setKey_sm : (s.setKey key table).sm = s.sm := rfl
@[simp] theorem setKey_ghost : (s.setKey key table).ghost = s.ghost := rfl
@[simp] theorem setKey_gen : (s.setKey key table).gen = s.gen := rfl
@[simp] theorem setKey_phase : (s.setKey key table).phase = s.phase := rfl
@[simp] theorem setKey_round : (s.setKey key table).round = s.round := rfl
@[simp] theorem setKey_source : (s.setKey key table).source = s.source := rfl
@[simp] theorem setKey_pending : (s.setKey key table).pending = s.pending := rfl
@[simp] theorem setKey_answers : (s.setKey key table).answers = s.answers := rfl
@[simp] theorem setKey_resets : (s.setKey key table).resets = s.resets := rfl
end

section
variable (m d1 d2 : MaskVec)
@[simp] theorem setMasks_keyValid : (s.setMasks m d1 d2).keyValid = s.keyValid := rfl
@[simp] theorem setMasks_err : (s.setMasks m d1 d2).err = s.err := rfl
@[simp] theorem setMasks_keyIn : (s.setMasks m d1 d2).keyIn = s.keyIn := rfl
@[simp] theorem setMasks_data : (s.setMasks m d1 d2).data = s.data := rfl
@[simp] theorem setMasks_k : (s.setMasks m d1 d2).k = s.k := rfl
@[simp] theorem setMasks_rk : (s.setMasks m d1 d2).rk = s.rk := rfl
@[simp] theorem setMasks_rkm : (s.setMasks m d1 d2).rkm = s.rkm := rfl
@[simp] theorem setMasks_mask : (s.setMasks m d1 d2).mask = m := rfl
@[simp] theorem setMasks_dm1 : (s.setMasks m d1 d2).dm1 = d1 := rfl
@[simp] theorem setMasks_dm2 : (s.setMasks m d1 d2).dm2 = d2 := rfl
@[simp] theorem setMasks_sm : (s.setMasks m d1 d2).sm = s.sm := rfl
@[simp] theorem setMasks_ghost : (s.setMasks m d1 d2).ghost = s.ghost := rfl
@[simp] theorem setMasks_gen : (s.setMasks m d1 d2).gen = s.gen := rfl
@[simp] theorem setMasks_phase : (s.setMasks m d1 d2).phase = s.phase := rfl
@[simp] theorem setMasks_round : (s.setMasks m d1 d2).round = s.round := rfl
@[simp] theorem setMasks_source : (s.setMasks m d1 d2).source = s.source := rfl
@[simp] theorem setMasks_pending : (s.setMasks m d1 d2).pending = s.pending := rfl
@[simp] theorem setMasks_answers : (s.setMasks m d1 d2).answers = s.answers := rfl
@[simp] theorem setMasks_resets : (s.setMasks m d1 d2).resets = s.resets := rfl
end

section
variable (p : BitVec 5) (r : BitVec 4)
@[simp] theorem setPhase_keyValid : (s.setPhase p r).keyValid = s.keyValid := rfl
@[simp] theorem setPhase_err : (s.setPhase p r).err = s.err := rfl
@[simp] theorem setPhase_keyIn : (s.setPhase p r).keyIn = s.keyIn := rfl
@[simp] theorem setPhase_data : (s.setPhase p r).data = s.data := rfl
@[simp] theorem setPhase_k : (s.setPhase p r).k = s.k := rfl
@[simp] theorem setPhase_rk : (s.setPhase p r).rk = s.rk := rfl
@[simp] theorem setPhase_rkm : (s.setPhase p r).rkm = s.rkm := rfl
@[simp] theorem setPhase_mask : (s.setPhase p r).mask = s.mask := rfl
@[simp] theorem setPhase_dm1 : (s.setPhase p r).dm1 = s.dm1 := rfl
@[simp] theorem setPhase_dm2 : (s.setPhase p r).dm2 = s.dm2 := rfl
@[simp] theorem setPhase_sm : (s.setPhase p r).sm = s.sm := rfl
@[simp] theorem setPhase_ghost : (s.setPhase p r).ghost = s.ghost := rfl
@[simp] theorem setPhase_gen : (s.setPhase p r).gen = s.gen := rfl
@[simp] theorem setPhase_phase : (s.setPhase p r).phase = p := rfl
@[simp] theorem setPhase_round : (s.setPhase p r).round = r := rfl
@[simp] theorem setPhase_source : (s.setPhase p r).source = s.source := rfl
@[simp] theorem setPhase_pending : (s.setPhase p r).pending = s.pending := rfl
@[simp] theorem setPhase_answers : (s.setPhase p r).answers = s.answers := rfl
@[simp] theorem setPhase_resets : (s.setPhase p r).resets = s.resets := rfl
end

section
variable (l : List HostAccess)
@[simp] theorem setPending_keyValid : (s.setPending l).keyValid = s.keyValid := rfl
@[simp] theorem setPending_err : (s.setPending l).err = s.err := rfl
@[simp] theorem setPending_keyIn : (s.setPending l).keyIn = s.keyIn := rfl
@[simp] theorem setPending_data : (s.setPending l).data = s.data := rfl
@[simp] theorem setPending_k : (s.setPending l).k = s.k := rfl
@[simp] theorem setPending_rk : (s.setPending l).rk = s.rk := rfl
@[simp] theorem setPending_rkm : (s.setPending l).rkm = s.rkm := rfl
@[simp] theorem setPending_mask : (s.setPending l).mask = s.mask := rfl
@[simp] theorem setPending_dm1 : (s.setPending l).dm1 = s.dm1 := rfl
@[simp] theorem setPending_dm2 : (s.setPending l).dm2 = s.dm2 := rfl
@[simp] theorem setPending_sm : (s.setPending l).sm = s.sm := rfl
@[simp] theorem setPending_ghost : (s.setPending l).ghost = s.ghost := rfl
@[simp] theorem setPending_gen : (s.setPending l).gen = s.gen := rfl
@[simp] theorem setPending_phase : (s.setPending l).phase = s.phase := rfl
@[simp] theorem setPending_round : (s.setPending l).round = s.round := rfl
@[simp] theorem setPending_source : (s.setPending l).source = s.source := rfl
@[simp] theorem setPending_pending : (s.setPending l).pending = l := rfl
@[simp] theorem setPending_answers : (s.setPending l).answers = s.answers := rfl
@[simp] theorem setPending_resets : (s.setPending l).resets = s.resets := rfl
end

section
variable (w : Word)
@[simp] theorem answer_keyValid : (s.answer w).keyValid = s.keyValid := rfl
@[simp] theorem answer_err : (s.answer w).err = s.err := rfl
@[simp] theorem answer_keyIn : (s.answer w).keyIn = s.keyIn := rfl
@[simp] theorem answer_data : (s.answer w).data = s.data := rfl
@[simp] theorem answer_k : (s.answer w).k = s.k := rfl
@[simp] theorem answer_rk : (s.answer w).rk = s.rk := rfl
@[simp] theorem answer_rkm : (s.answer w).rkm = s.rkm := rfl
@[simp] theorem answer_mask : (s.answer w).mask = s.mask := rfl
@[simp] theorem answer_dm1 : (s.answer w).dm1 = s.dm1 := rfl
@[simp] theorem answer_dm2 : (s.answer w).dm2 = s.dm2 := rfl
@[simp] theorem answer_sm : (s.answer w).sm = s.sm := rfl
@[simp] theorem answer_ghost : (s.answer w).ghost = s.ghost := rfl
@[simp] theorem answer_gen : (s.answer w).gen = s.gen := rfl
@[simp] theorem answer_phase : (s.answer w).phase = s.phase := rfl
@[simp] theorem answer_round : (s.answer w).round = s.round := rfl
@[simp] theorem answer_source : (s.answer w).source = s.source := rfl
@[simp] theorem answer_pending : (s.answer w).pending = s.pending := rfl
@[simp] theorem answer_answers : (s.answer w).answers = s.answers ++ [w] := rfl
@[simp] theorem answer_resets : (s.answer w).resets = s.resets := rfl
end

section
variable (l : List Nat)
@[simp] theorem setResets_keyValid : (s.setResets l).keyValid = s.keyValid := rfl
@[simp] theorem setResets_err : (s.setResets l).err = s.err := rfl
@[simp] theorem setResets_keyIn : (s.setResets l).keyIn = s.keyIn := rfl
@[simp] theorem setResets_data : (s.setResets l).data = s.data := rfl
@[simp] theorem setResets_k : (s.setResets l).k = s.k := rfl
@[simp] theorem setResets_rk : (s.setResets l).rk = s.rk := rfl
@[simp] theorem setResets_rkm : (s.setResets l).rkm = s.rkm := rfl
@[simp] theorem setResets_mask : (s.setResets l).mask = s.mask := rfl
@[simp] theorem setResets_dm1 : (s.setResets l).dm1 = s.dm1 := rfl
@[simp] theorem setResets_dm2 : (s.setResets l).dm2 = s.dm2 := rfl
@[simp] theorem setResets_sm : (s.setResets l).sm = s.sm := rfl
@[simp] theorem setResets_ghost : (s.setResets l).ghost = s.ghost := rfl
@[simp] theorem setResets_gen : (s.setResets l).gen = s.gen := rfl
@[simp] theorem setResets_phase : (s.setResets l).phase = s.phase := rfl
@[simp] theorem setResets_round : (s.setResets l).round = s.round := rfl
@[simp] theorem setResets_source : (s.setResets l).source = s.source := rfl
@[simp] theorem setResets_pending : (s.setResets l).pending = s.pending := rfl
@[simp] theorem setResets_answers : (s.setResets l).answers = s.answers := rfl
@[simp] theorem setResets_resets : (s.setResets l).resets = l := rfl
end

/-! Reset (R220): the core's fields, and what lies outside the core. -/

@[simp] theorem applyReset_keyValid : (applyReset s).keyValid = false := rfl
@[simp] theorem applyReset_err : (applyReset s).err = 0 := rfl
@[simp] theorem applyReset_keyIn : (applyReset s).keyIn = zeroBlock := rfl
@[simp] theorem applyReset_data : (applyReset s).data = zeroBlock := rfl
@[simp] theorem applyReset_ghost : (applyReset s).ghost = zeroBlock := rfl
@[simp] theorem applyReset_phase : (applyReset s).phase = Phase.idle := rfl
@[simp] theorem applyReset_round : (applyReset s).round = 0 := rfl
@[simp] theorem applyReset_source : (applyReset s).source = s.source := rfl
@[simp] theorem applyReset_pending : (applyReset s).pending = s.pending := rfl
@[simp] theorem applyReset_answers : (applyReset s).answers = s.answers := rfl
@[simp] theorem applyReset_resets : (applyReset s).resets = s.resets := rfl

/-! The error and the acceptance of a command as updates. -/

@[simp] theorem raiseInvalidInput_eq : raiseInvalidInput s = { s with err := 1 } := rfl

@[simp] theorem acceptCommand_eq (p : BitVec 5) : acceptCommand p s = { s with err := 0, phase := p, round := 0 } := rfl

end Sys2Proof.Machine.State
end

