-- ==== Sys2Proof/Laws/Bytes.lean ====
section
/-! SUPPORT. What the pure operations on bytes, columns, states and words do, byte by byte; later proofs cite these and
do not unfold the operations. -/

namespace Sys2Proof

@[simp] theorem getElem_tabulate {α : Type} {n : Nat} (f : Fin n → α) (i : Nat) (h : i < n) :
    (tabulate f)[i] = f ⟨i, h⟩ := by
  simp [tabulate]

@[simp] theorem getElem_zeroBlock (i : Nat) (h : i < 16) : zeroBlock[i] = 0 := by simp [zeroBlock]

namespace Machine

/-- Two states are equal when they agree at every row and column. -/
theorem block_ext {s t : Block} (h : ∀ i j : Fin 4, stateAt s i j = stateAt t i j) : s = t := by
  ext b hb : 1
  have hbyte := h ⟨b % 4, by omega⟩ ⟨b / 4, by omega⟩
  have hidx : 4 * (b / 4) + b % 4 = b := by omega
  simpa [stateAt, hidx] using hbyte

@[simp] theorem stateAt_ofRowsCols (f : Fin 4 → Fin 4 → Byte) (i j : Fin 4) :
    stateAt (ofRowsCols f) i j = f i j := by
  have hi : (4 * j.val + i.val) % 4 = i.val := by omega
  have hj : (4 * j.val + i.val) / 4 = j.val := by omega
  simp [stateAt, ofRowsCols, hi, hj]

theorem getElem_ofRowsCols (f : Fin 4 → Fin 4 → Byte) (b : Nat) (h : b < 16) :
    (ofRowsCols f)[b] = f ⟨b % 4, by omega⟩ ⟨b / 4, by omega⟩ := by
  simp [ofRowsCols]

@[simp] theorem stateAt_tabulate (f : Fin 16 → Byte) (i j : Fin 4) :
    stateAt (tabulate f) i j = f ⟨4 * j.val + i.val, by omega⟩ := by
  simp [stateAt]

@[simp] theorem stateAt_shiftRows (s : Block) (i j : Fin 4) : stateAt (shiftRows s) i j = stateAt s i (j + i) := by
  simp [shiftRows]

@[simp] theorem stateAt_mixColumns (s : Block) (i j : Fin 4) :
    stateAt (mixColumns s) i j = (mixCol (column s j))[i] := by
  simp [mixColumns]

@[simp] theorem stateAt_remaskState (s : Block) (a b : Quad) (i j : Fin 4) :
    stateAt (remaskState s a b) i j = stateAt s i j ^^^ (a[i] ^^^ b[i]) := by
  simp [remaskState]

@[simp] theorem stateAt_xorBlock (s t : Block) (i j : Fin 4) :
    stateAt (xorBlock s t) i j = stateAt s i j ^^^ stateAt t i j := by
  simp [xorBlock, stateAt]

@[simp] theorem stateAt_subBytes (s : Block) (i j : Fin 4) : stateAt (subBytes s) i j = sbox (stateAt s i j) := by
  simp [subBytes, stateAt]

@[simp] theorem stateAt_subMasked (sm : SubTable) (s : Block) (i j : Fin 4) :
    stateAt (subMasked sm s) i j = smAt sm (stateAt s i j) := by
  simp [subMasked, stateAt]

@[simp] theorem stateAt_decoyBlock (s : Block) (i j : Fin 4) :
    stateAt (decoyBlock s) i j = stateAt s i j ^^^ Config.decoy := by
  simp [decoyBlock, stateAt]

@[simp] theorem getElem_xorBlock (s t : Block) (b : Nat) (h : b < 16) : (xorBlock s t)[b] = s[b] ^^^ t[b] := by
  simp [xorBlock]

@[simp] theorem getElem_subMasked (sm : SubTable) (s : Block) (b : Nat) (h : b < 16) :
    (subMasked sm s)[b] = smAt sm s[b] := by
  simp [subMasked]

@[simp] theorem getElem_uniformMask (m : Byte) (i : Nat) (h : i < 4) : (uniformMask m)[i] = m := by
  match i, h with
  | 0, _ | 1, _ | 2, _ | 3, _ => rfl

@[simp] theorem getElem_rowMasks (m : MaskVec) (i : Nat) (h : i < 4) : (rowMasks m)[i] = m[i] := by
  match i, h with
  | 0, _ | 1, _ | 2, _ | 3, _ => rfl

@[simp] theorem getElem_mixMasks (m : MaskVec) (i : Nat) (h : i < 4) : (mixMasks m)[i] = m[6 + i] := by
  match i, h with
  | 0, _ | 1, _ | 2, _ | 3, _ => rfl

@[simp] theorem getElem_xorQuad (a b : Quad) (i : Nat) (h : i < 4) : (xorQuad a b)[i] = a[i] ^^^ b[i] := by
  match i, h with
  | 0, _ | 1, _ | 2, _ | 3, _ => rfl

@[simp] theorem getElem_column (s : Block) (j : Fin 4) (i : Nat) (h : i < 4) :
    (column s j)[i] = stateAt s ⟨i, h⟩ j := by
  match i, h with
  | 0, _ | 1, _ | 2, _ | 3, _ => rfl

/-! ### The multiplication by 2 and column mixing -/

theorem xtime_xor (a b : Byte) : xtime (a ^^^ b) = xtime a ^^^ xtime b := by
  simp only [xtime, BitVec.getLsbD_xor, BitVec.shiftLeft_xor_distrib]
  have swap (x y c d : Byte) : x ^^^ y ^^^ (c ^^^ d) = x ^^^ c ^^^ (y ^^^ d) := by ac_rfl
  rw [swap]
  congr 1
  cases a.getLsbD 7 <;> cases b.getLsbD 7 <;> rfl

theorem mul2_xor (a b : Byte) : mul2 (a ^^^ b) = mul2 a ^^^ mul2 b := xtime_xor a b

theorem mul3_xor (a b : Byte) : mul3 (a ^^^ b) = mul3 a ^^^ mul3 b := by
  simp only [mul3, xtime_xor]
  ac_rfl

/-! ### Words of a 16-byte store (R52) -/

theorem toNat_byteOf (v : Word) (n : Nat) : (byteOf v n).toNat = v.toNat / 2 ^ (8 * n) % 256 := by
  simp [byteOf, BitVec.extractLsb'_toNat, Nat.shiftRight_eq_div_pow]

theorem getElem_setWordAt (x : Block) (k : Fin 4) (v : Word) (b : Nat) (h : b < 16) :
    (setWordAt x k v)[b] = if b / 4 = k.val then byteOf v (b % 4) else x[b] := by
  simp [setWordAt]

theorem toNat_wordAt (x : Block) (k : Fin 4) :
    (wordAt x k).toNat = x[4 * k.val].toNat + 2 ^ 8 * x[4 * k.val + 1].toNat +
      2 ^ 16 * x[4 * k.val + 2].toNat + 2 ^ 24 * x[4 * k.val + 3].toNat := by
  simp only [wordAt, BitVec.toNat_append, Nat.shiftLeft_eq]
  have h0 := x[4 * k.val].isLt
  have h1 := x[4 * k.val + 1].isLt
  have h2 := x[4 * k.val + 2].isLt
  have or_add (a b : Nat) (h : b < 2 ^ 8) : a * 2 ^ 8 ||| b = a * 2 ^ 8 + b := by
    rw [← Nat.shiftLeft_eq, Nat.shiftLeft_add_eq_or_of_lt h]
  rw [or_add _ _ h0, or_add _ _ h1, or_add _ _ h2]
  omega

/-- A word written to a store is the word read back. -/
theorem wordAt_setWordAt_same (x : Block) (k : Fin 4) (v : Word) : wordAt (setWordAt x k v) k = v := by
  apply BitVec.eq_of_toNat_eq
  have hv := v.isLt
  have h0 : (4 * k.val) / 4 = k.val := by omega
  have h1 : (4 * k.val + 1) / 4 = k.val := by omega
  have h2 : (4 * k.val + 2) / 4 = k.val := by omega
  have h3 : (4 * k.val + 3) / 4 = k.val := by omega
  have m1 : (4 * k.val + 1) % 4 = 1 := by omega
  have m2 : (4 * k.val + 2) % 4 = 2 := by omega
  have m3 : (4 * k.val + 3) % 4 = 3 := by omega
  simp only [toNat_wordAt, getElem_setWordAt, h0, h1, h2, h3, m1, m2, m3, if_true, Nat.mul_mod_right, toNat_byteOf]
  omega

/-- A write to one word leaves the others as they were. -/
theorem wordAt_setWordAt_other (x : Block) (k j : Fin 4) (v : Word) (h : j ≠ k) :
    wordAt (setWordAt x k v) j = wordAt x j := by
  have hne : j.val ≠ k.val := fun e => h (Fin.ext e)
  have h0 : ¬ (4 * j.val) / 4 = k.val := by omega
  have h1 : ¬ (4 * j.val + 1) / 4 = k.val := by omega
  have h2 : ¬ (4 * j.val + 2) / 4 = k.val := by omega
  have h3 : ¬ (4 * j.val + 3) / 4 = k.val := by omega
  simp only [wordAt, getElem_setWordAt, h0, h1, h2, h3, if_false]

/-! ### The masked table (R126) -/

@[simp] theorem smAt_buildSM (m4 m5 y : Byte) : smAt (buildSM m4 m5) y = sbox (y ^^^ m4) ^^^ m5 := by
  simp [smAt, buildSM]

end Machine
end Sys2Proof
end

