-- ==== Sys2Proof/Laws/Domains.lean ====
section
/-! SUPPORT. Masked states byte by byte, and the two cancellations that every change of domain is made of. -/

namespace Sys2Proof.Machine

open Sys2Proof.Safety

@[simp] theorem getElem_noMask (i : Nat) (h : i < 4) : noMask[i] = 0 := by simp [noMask]

@[simp] theorem stateAt_maskedBy (q : Quad) (v : Block) (i j : Fin 4) :
    stateAt (maskedBy q v) i j = stateAt v i j ^^^ q[i] := by
  have hi : (4 * j.val + i.val) % 4 = i.val := by omega
  simp [maskedBy, stateAt, hi]

/-- A mask that is put on twice is gone: the step of R133. -/
theorem xor_change (v a b : Byte) : v ^^^ a ^^^ (a ^^^ b) = v ^^^ b := by
  rw [BitVec.xor_assoc, ← BitVec.xor_assoc a a b, BitVec.xor_self, BitVec.zero_xor]

/-- A masked state and a masked key block add to a state in the key block's domain. -/
theorem xor_addKey (v m k d : Byte) : v ^^^ m ^^^ (k ^^^ d ^^^ m) = v ^^^ k ^^^ d := by
  have h : v ^^^ m ^^^ (k ^^^ d ^^^ m) = v ^^^ k ^^^ d ^^^ (m ^^^ m) := by ac_rfl
  rw [h, BitVec.xor_self, BitVec.xor_zero]

end Sys2Proof.Machine
end

