-- ==== Sys2Proof/Laws/Draws.lean ====
section
/-! SUPPORT. The chain of draws, and the two loops that draw: GENMASK's and SUB_DECOY's. -/

namespace Sys2Proof.Machine

open Sys2Proof.Safety

@[simp] theorem genAfter_zero (g : GenState) : genAfter 0 g = g := rfl

theorem genAfter_succ (n : Nat) (g : GenState) : genAfter (n + 1) g = genAfter n (draw g).2 := rfl

theorem genAfter_add (m n : Nat) (g : GenState) : genAfter (m + n) g = genAfter n (genAfter m g) := by
  induction m generalizing g with
  | zero => rw [Nat.zero_add, genAfter_zero]
  | succ m ih => rw [Nat.succ_add, genAfter_succ, ih, genAfter_succ]

theorem drawnByte_one (g : GenState) : drawnByte g 1 = (draw g).1 := rfl

theorem drawnByte_after (m n : Nat) (g : GenState) (h : 1 ≤ n) :
    drawnByte (genAfter m g) n = drawnByte g (m + n) := by
  obtain ⟨k, rfl⟩ : ∃ k, n = k + 1 := ⟨n - 1, by omega⟩
  show (draw (genAfter k (genAfter m g))).1 = (draw (genAfter (m + k) g)).1
  rw [genAfter_add]

/-- One turn of SUB_DECOY's loop with its three results named. -/
theorem subDecoyByte_eq (sm : SubTable) (data ghost : Block) (g : GenState) (b : Fin 16) :
    subDecoyByte sm (data, ghost, g) b =
      (data.set b.val (smAt sm data[b]) b.isLt, ghost.set b.val (draw g).1 b.isLt, (draw g).2) := rfl

/-- SUB_DECOY's loop over positions that are all different: a position it visits holds the looked-up byte and a fresh
draw, the others keep their bytes, and it draws once for each position. -/
theorem subDecoy_loop (sm : SubTable) (l : List (Fin 16)) (hl : l.Nodup) (data ghost : Block) (g : GenState) :
    (∀ b : Fin 16, (l.foldl (subDecoyByte sm) (data, ghost, g)).1[b] =
      if b ∈ l then smAt sm data[b] else data[b]) ∧
    (∀ b : Fin 16, b ∉ l → (l.foldl (subDecoyByte sm) (data, ghost, g)).2.1[b] = ghost[b]) ∧
    (∀ n, ∀ h : n < l.length,
      (l.foldl (subDecoyByte sm) (data, ghost, g)).2.1[l[n]] = drawnByte g (n + 1)) ∧
    (l.foldl (subDecoyByte sm) (data, ghost, g)).2.2 = genAfter l.length g := by
  induction l generalizing data ghost g with
  | nil => simp
  | cons a l ih =>
    obtain ⟨ha, hl⟩ := List.nodup_cons.mp hl
    obtain ⟨hd, hk, hg, he⟩ :=
      ih hl (data.set a.val (smAt sm data[a]) a.isLt) (ghost.set a.val (draw g).1 a.isLt) (draw g).2
    simp only [List.foldl_cons, subDecoyByte_eq]
    refine ⟨fun b => ?_, fun b hb => ?_, fun n hn => ?_, ?_⟩
    · rw [hd b]
      by_cases hab : b = a
      · subst hab
        simp [ha]
      · have hv : a.val ≠ b.val := fun e => hab (Fin.ext e.symm)
        simp [hab, Vector.getElem_set_ne, hv]
    · have hne : b ≠ a := fun e => hb (e ▸ List.mem_cons_self)
      have hnot : b ∉ l := fun h => hb (List.mem_cons_of_mem a h)
      have hv : a.val ≠ b.val := fun e => hne (Fin.ext e.symm)
      rw [hk b hnot]
      simp [Vector.getElem_set_ne, hv]
    · cases n with
      | zero =>
        simp only [List.getElem_cons_zero]
        rw [hk a ha]
        simp [drawnByte_one]
      | succ n =>
        simp only [List.getElem_cons_succ]
        rw [hg n (by simpa using hn), ← genAfter_zero (draw g).2, ← genAfter_succ, drawnByte_after _ _ _ (by omega),
          Nat.add_comm]
    · rw [he, List.length_cons, genAfter_succ]

theorem rowMajor_nodup : rowMajor.Nodup := by decide

theorem mem_rowMajor (b : Fin 16) : b ∈ rowMajor := by revert b; decide

theorem rowMajor_length : rowMajor.length = 16 := rfl

theorem getElem_rowMajor (i j : Fin 4) :
    rowMajor[4 * i.val + j.val]'(by rw [rowMajor_length]; omega) = ⟨4 * j.val + i.val, by omega⟩ := by
  revert i j
  decide

theorem genAfter_last (n : Nat) (g : GenState) : genAfter (n + 1) g = (draw (genAfter n g)).2 := by
  rw [genAfter_add]
  rfl

theorem drawSlot_mask (m d1 d2 : MaskVec) (g : GenState) (n : Nat) (k : Fin 10) :
    drawSlot (m, d1, d2, genAfter n g) (.mask k) =
      (m.set k.val (drawnByte g (n + 1)) k.isLt, d1, d2, genAfter (n + 1) g) := by
  rw [genAfter_last]
  rfl

theorem drawSlot_dm1 (m d1 d2 : MaskVec) (g : GenState) (n : Nat) (k : Fin 10) :
    drawSlot (m, d1, d2, genAfter n g) (.dm1 k) =
      (m, d1.set k.val (drawnByte g (n + 1)) k.isLt, d2, genAfter (n + 1) g) := by
  rw [genAfter_last]
  rfl

theorem drawSlot_dm2 (m d1 d2 : MaskVec) (g : GenState) (n : Nat) (k : Fin 10) :
    drawSlot (m, d1, d2, genAfter n g) (.dm2 k) =
      (m, d1, d2.set k.val (drawnByte g (n + 1)) k.isLt, genAfter (n + 1) g) := by
  rw [genAfter_last]
  rfl

/-- The masks of GENMASK before slots 6..9 are derived, and the generator state after the 18 draws (R123). -/
theorem drawOrder_foldl (m d1 d2 : MaskVec) (g : GenState) :
    drawOrder.foldl drawSlot (m, d1, d2, g) =
      ((((((m.set 4 (drawnByte g 1)).set 0 (drawnByte g 4)).set 1 (drawnByte g 7)).set 2 (drawnByte g 10)).set 3
          (drawnByte g 13)).set 5 (drawnByte g 18),
       (((((d1.set 4 (drawnByte g 2)).set 0 (drawnByte g 5)).set 1 (drawnByte g 8)).set 2 (drawnByte g 11)).set 3
          (drawnByte g 14)).set 5 (drawnByte g 16),
       (((((d2.set 4 (drawnByte g 3)).set 0 (drawnByte g 6)).set 1 (drawnByte g 9)).set 2 (drawnByte g 12)).set 3
          (drawnByte g 15)).set 5 (drawnByte g 17),
       genAfter 18 g) := by
  have h := drawSlot_mask m d1 d2 g 0 4
  rw [genAfter_zero] at h
  simp only [drawOrder, List.foldl_cons, List.foldl_nil, h, drawSlot_mask, drawSlot_dm1, drawSlot_dm2]
  rfl

end Sys2Proof.Machine
end

