-- ==== Sys2Proof/Laws/Encoding.lean ====
section
/-! SUPPORT. The fields of a record and of a CTRL word, and the register map both ways. -/

namespace Sys2Proof

/-! ### The record (R75) -/

theorem shiftLeft_or_eq (a : Nat) {n b : Nat} (h : b < 2 ^ n) : a <<< n ||| b = a * 2 ^ n + b := by
  rw [← Nat.shiftLeft_add_eq_or_of_lt h, Nat.shiftLeft_eq]

theorem toNat_record (b39 w : BitVec 1) (off : BitVec 6) (v : Word) :
    (record b39 w off v).toNat = ((b39.toNat * 2 ^ 1 + w.toNat) * 2 ^ 6 + off.toNat) * 2 ^ 32 + v.toNat := by
  rw [record, BitVec.toNat_append, BitVec.toNat_append, BitVec.toNat_append, shiftLeft_or_eq _ w.isLt,
    shiftLeft_or_eq _ off.isLt, shiftLeft_or_eq _ v.isLt]

theorem toNat_field {n : Nat} (r : BitVec n) (lo len : Nat) :
    (r.extractLsb' lo len).toNat = r.toNat / 2 ^ lo % 2 ^ len := by
  rw [BitVec.extractLsb'_toNat, Nat.shiftRight_eq_div_pow]

theorem record_val (b39 w : BitVec 1) (off : BitVec 6) (v : Word) : (record b39 w off v).extractLsb' 0 32 = v := by
  apply BitVec.eq_of_toNat_eq
  have := v.isLt
  rw [toNat_field, toNat_record]
  omega

theorem record_off (b39 w : BitVec 1) (off : BitVec 6) (v : Word) : (record b39 w off v).extractLsb' 32 6 = off := by
  apply BitVec.eq_of_toNat_eq
  have := v.isLt
  have := off.isLt
  rw [toNat_field, toNat_record]
  omega

theorem record_write (b39 w : BitVec 1) (off : BitVec 6) (v : Word) : (record b39 w off v).extractLsb' 38 1 = w := by
  apply BitVec.eq_of_toNat_eq
  have := v.isLt
  have := off.isLt
  have := w.isLt
  rw [toNat_field, toNat_record]
  omega

theorem record_bit39 (b39 w : BitVec 1) (off : BitVec 6) (v : Word) : (record b39 w off v).extractLsb' 39 1 = b39 := by
  apply BitVec.eq_of_toNat_eq
  have := v.isLt
  have := off.isLt
  have := w.isLt
  have := b39.isLt
  rw [toNat_field, toNat_record]
  omega

/-- A record is made of its four fields. -/
theorem record_fields (r : BitVec 40) :
    record (r.extractLsb' 39 1) (r.extractLsb' 38 1) (r.extractLsb' 32 6) (r.extractLsb' 0 32) = r := by
  apply BitVec.eq_of_toNat_eq
  have := r.isLt
  rw [toNat_record, toNat_field, toNat_field, toNat_field, toNat_field]
  omega

/-- OFF[1:0] of a record. -/
theorem offset_low (r : BitVec 40) : (r.extractLsb' 32 6).extractLsb' 0 2 = r.extractLsb' 32 2 := by
  ext i h
  simp
  omega

/-! ### The register map (R51) -/

@[simp] theorem regAt_offsetOf (r : Reg) : regAt (offsetOf r) = some r := by
  cases r with
  | ctrl => rfl
  | status => rfl
  | reservedLow k => revert k; decide
  | key k => revert k; decide
  | data k => revert k; decide
  | reservedHigh k => revert k; decide

theorem regAt_eq_none (off : BitVec 6) : regAt off = none ↔ off.extractLsb' 0 2 ≠ 0 := by
  revert off
  decide

theorem offsetOf_of_regAt {off : BitVec 6} {r : Reg} (h : regAt off = some r) : offsetOf r = off := by
  have all : ∀ o : BitVec 6, (regAt o).all (fun r => offsetOf r == o) = true := by decide
  have := all off
  rw [h] at this
  simpa using this

/-- An access to a register decodes to its transaction. -/
theorem decode_encodeReg (write : Bool) (r : Reg) (v : Word) : decode (encodeReg write r v) = regInstr write r v := by
  simp only [encodeReg, decode, decodeAccess, decodeRecord, record_val, record_off, record_write, record_bit39,
    regAt_offsetOf]
  cases write <;> simp

theorem encode_regInstr (write : Bool) (r : Reg) (v : Word) : encode (regInstr write r v) = encodeReg write r v := by
  cases write <;> cases r <;> rfl

theorem wf_regInstr (write : Bool) (r : Reg) (v : Word) : (regInstr write r v).wf = true := by
  cases write <;> cases r <;> rfl

/-- A bus access that reaches no register is one that R55 does not admit. -/
theorem busReg_eq_none (write : Bool) (addr width : Nat) (v : Word) :
    busReg addr width = none ↔ (HostAccess.bus write addr width v).admitted = false := by
  unfold busReg HostAccess.admitted
  split
  · rename_i h
    obtain ⟨hw, hb, hlt⟩ := h
    have hlow : (BitVec.ofNat 6 (addr - Config.base)).extractLsb' 0 2 = BitVec.ofNat 2 (addr - Config.base) := by
      apply BitVec.eq_of_toNat_eq
      simp [BitVec.extractLsb'_toNat]
    have hne : BitVec.ofNat 2 (addr - Config.base) ≠ 0 ↔ ¬ (addr - Config.base) % 4 = 0 := by
      rw [not_iff_not, ← BitVec.toNat_inj]
      simp
    rw [regAt_eq_none, hlow, hne]
    simp only [hw, hb, decide_true, beq_self_eq_true, Bool.true_and, Bool.and_eq_false_iff, beq_eq_false_iff_ne,
      decide_eq_false_iff_not]
    omega
  · rename_i h
    simp only [Bool.and_eq_false_iff, beq_eq_false_iff_ne, decide_eq_false_iff_not, true_iff]
    omega

/-! ### The command word (R70) -/

theorem ctrlCmd_append (hi : BitVec 30) : ctrlCmd (hi ++ (0 : BitVec 2)) = 0 := by
  apply BitVec.eq_of_toNat_eq
  rw [ctrlCmd, toNat_field, BitVec.toNat_append, Nat.shiftLeft_eq]
  simp

theorem high_append (hi : BitVec 30) : (hi ++ (0 : BitVec 2)).extractLsb' 2 30 = hi := by
  apply BitVec.eq_of_toNat_eq
  have := hi.isLt
  rw [toNat_field, BitVec.toNat_append, Nat.shiftLeft_eq]
  simp
  omega

theorem append_ctrlCmd {v : Word} (h : ctrlCmd v = 0) : v.extractLsb' 2 30 ++ (0 : BitVec 2) = v := by
  apply BitVec.eq_of_toNat_eq
  have hv := v.isLt
  have hlow := congrArg BitVec.toNat h
  rw [ctrlCmd, toNat_field] at hlow
  rw [BitVec.toNat_append, toNat_field, Nat.shiftLeft_eq]
  simp at *
  omega

end Sys2Proof
end

