-- ==== Sys2Proof/Laws/Step.lean ====
section
/-! SUPPORT. What the shared operations of the step can do, said once: the reset line, the choice of what is performed
next, and a micro-operation. -/

namespace Sys2Proof.Machine

@[simp] theorem resetLine_nil : resetLine [] = (false, []) := rfl

@[simp] theorem resetLine_due (rest : List Nat) : resetLine (0 :: rest) = (true, rest) := rfl

@[simp] theorem resetLine_later (n : Nat) (rest : List Nat) : resetLine ((n + 1) :: rest) = (false, n :: rest) := rfl

theorem fetch_busy {s : State} (h : s.phase ≠ Phase.idle) : fetch s = (decodePhase s.phase, s) := by
  rw [fetch, if_neg h]

theorem fetch_host {s : State} {a : HostAccess} {rest : List HostAccess} (h : s.phase = Phase.idle)
    (hp : s.pending = a :: rest) : fetch s = (decodeAccess a, s.setPending rest) := by
  rw [fetch, if_pos h, hp]

theorem fetch_waiting {s : State} (h : s.phase = Phase.idle) (hp : s.pending = []) : fetch s = (.idle, s) := by
  rw [fetch, if_pos h, hp]

/-- A step is a reset when one is due, and otherwise the step of the agent that has one. -/
theorem step_cases (s : State) :
    ((resetLine s.resets).1 = true ∧ step s = .next (applyReset (s.setResets (resetLine s.resets).2))) ∨
    ((resetLine s.resets).1 = false ∧ step s = agentStep (s.setResets (resetLine s.resets).2)) := by
  cases h : (resetLine s.resets).1 <;> simp [step, h]

/-- With no reset planned a step is the agent's. -/
theorem step_undisturbed {s : State} (h : s.resets = []) : step s = agentStep s := by
  have hs : s.setResets [] = s := by
    cases s
    simp only [State.setResets] at *
    rw [h]
  simp [step, h, hs]

/-- Everything a micro-operation can do: it goes on to the pair that `Next` gives, with its own effect on the stores,
or it faults on a pair that `Next` does not list. -/
theorem microOp_cases (p : BitVec 5) (effect : State → State) (s : State) :
    (∃ p' r', nextPhase p s.round = some (p', r') ∧ microOp p effect s = .next ((effect s).setPhase p' r')) ∨
    (nextPhase p s.round = none ∧ microOp p effect s = .fault (.reservedPhase p s.round)) := by
  unfold microOp
  cases h : nextPhase p s.round with
  | none => exact .inr ⟨rfl, rfl⟩
  | some q => exact .inl ⟨q.1, q.2, rfl, rfl⟩

theorem microOp_next {p p' : BitVec 5} {r' : BitVec 4} {s : State} (effect : State → State)
    (h : nextPhase p s.round = some (p', r')) : microOp p effect s = .next ((effect s).setPhase p' r') := by
  simp [microOp, h]

/-- The round-key operand of a ROUND that the key additions run in. -/
theorem roundKeyMasked_of_le {s : State} (h : s.round ≤ 10) :
    roundKeyMasked s = some (Safety.keyAt s.rkm s.round.toNat) := by
  have hr : s.round.toNat ≤ 10 := h
  have hlt : s.round.toNat < 11 := by omega
  simp [roundKeyMasked, Safety.keyAt, hlt]

/-- One more step of a run that has gone on, on any machine. -/
theorem machine_run_succ {M : Host.Core} {n : Nat} {s t : M.State} (h : M.step s = .next t) :
    M.run (n + 1) s = M.run n t := by
  simp only [Host.Core.run, h]

/-- A run of `m + n` steps is a run of `n` steps after one of `m` that has gone on, on any machine. -/
theorem machine_run_add {M : Host.Core} {n m : Nat} {s t : M.State} (h : M.run m s = .next t) :
    M.run (m + n) s = M.run n t := by
  induction m generalizing s with
  | zero =>
    cases h
    rw [Nat.zero_add]
  | succ m ih =>
    rw [Nat.succ_add]
    cases hs : M.step s with
    | next u =>
      rw [machine_run_succ hs] at h ⊢
      exact ih h
    | fault f =>
      simp only [Host.Core.run, hs] at h
      cases h
    | refused f =>
      simp only [Host.Core.run, hs] at h
      cases h

/-- One more step of a run of the core that has gone on. -/
theorem run_succ {n : Nat} {s t : State} (h : step s = .next t) :
    Host.Core.run core (n + 1) s = Host.Core.run core n t :=
  machine_run_succ (M := core) h

/-- A run of the core of `m + n` steps is a run of `n` steps after one of `m` that has gone on. -/
theorem run_add {n m : Nat} {s t : State} (h : Host.Core.run core m s = .next t) :
    Host.Core.run core (m + n) s = Host.Core.run core n t :=
  machine_run_add (M := core) h

end Sys2Proof.Machine
end

