-- ==== Sys2Proof/Laws/Engine.lean ====
section
/-! SUPPORT. What a step of the engine can do to the stores that are not its own: one frame lemma for all the
micro-operations, which the proofs about flags, keys and the host's side cite. -/

namespace Sys2Proof.Machine

/-- The stores no micro-operation but KEXP writes (R42), and the machine's surroundings. -/
structure EngineFrame (s t : State) : Prop where
  keyValid : t.keyValid = s.keyValid
  err : t.err = s.err
  keyIn : t.keyIn = s.keyIn
  k : t.k = s.k
  rk : t.rk = s.rk
  source : t.source = s.source
  pending : t.pending = s.pending
  answers : t.answers = s.answers
  resets : t.resets = s.resets

/-- A micro-operation keeps what its effect keeps. -/
theorem microOp_frame {p : BitVec 5} {effect : State → State} {s t : State} (he : EngineFrame s (effect s))
    (h : microOp p effect s = .next t) : EngineFrame s t := by
  obtain ⟨p', r', -, h'⟩ | ⟨-, h'⟩ := microOp_cases p effect s
  · rw [h'] at h
    cases h
    exact ⟨he.keyValid, he.err, he.keyIn, he.k, he.rk, he.source, he.pending, he.answers, he.resets⟩
  · rw [h'] at h
    cases h

/-- GENMASK writes the three mask vectors and GEN. -/
theorem genmaskEffect_eq (s : State) : ∃ m d1 d2 g, genMasks s.mask s.dm1 s.dm2 s.gen = (m, d1, d2, g) ∧
    genmaskEffect s = (s.setMasks m d1 d2).setGen g := by
  rw [genmaskEffect]
  generalize genMasks s.mask s.dm1 s.dm2 s.gen = draws
  obtain ⟨m, d1, d2, g⟩ := draws
  exact ⟨m, d1, d2, g, rfl, rfl⟩

/-- SUB_DECOY writes DATA, GHOST and GEN. -/
theorem subDecoyEffect_eq (s : State) : ∃ data ghost g,
    rowMajor.foldl (subDecoyByte s.sm) (s.data, s.ghost, s.gen) = (data, ghost, g) ∧
    subDecoyEffect s = ((s.setData data).setGhost ghost).setGen g := by
  rw [subDecoyEffect]
  generalize rowMajor.foldl (subDecoyByte s.sm) (s.data, s.ghost, s.gen) = loop
  obtain ⟨data, ghost, g⟩ := loop
  exact ⟨data, ghost, g, rfl, rfl⟩

section

variable {s t : State}

theorem execSeed_frame (h : execSeed s = .next t) : EngineFrame s t := by
  unfold execSeed at h
  exact microOp_frame (by constructor <;> rfl) h

theorem execGenmask_frame (h : execGenmask s = .next t) : EngineFrame s t := by
  refine microOp_frame ?_ h
  obtain ⟨m, d1, d2, g, -, he⟩ := genmaskEffect_eq s
  rw [he]
  constructor <;> rfl

theorem execBuildSbox_frame (h : execBuildSbox s = .next t) : EngineFrame s t := by
  unfold execBuildSbox at h
  exact microOp_frame (by constructor <;> rfl) h

theorem execRkFinal_frame (h : execRkFinal s = .next t) : EngineFrame s t := by
  unfold execRkFinal at h
  exact microOp_frame (by constructor <;> rfl) h

theorem execGhostInit_frame (h : execGhostInit s = .next t) : EngineFrame s t := by
  unfold execGhostInit at h
  exact microOp_frame (by constructor <;> rfl) h

theorem execRkMask_frame (h : execRkMask s = .next t) : EngineFrame s t := by
  unfold execRkMask at h
  exact microOp_frame (by constructor <;> rfl) h

theorem execR0Remask_frame (h : execR0Remask s = .next t) : EngineFrame s t := by
  unfold execR0Remask at h
  exact microOp_frame (by constructor <;> rfl) h

theorem execArkDecoy_frame (h : execArkDecoy s = .next t) : EngineFrame s t := by
  unfold execArkDecoy at h
  split at h
  · exact microOp_frame (by constructor <;> rfl) h
  · cases h

theorem execSubUniform_frame (h : execSubUniform s = .next t) : EngineFrame s t := by
  unfold execSubUniform at h
  exact microOp_frame (by constructor <;> rfl) h

theorem execSubDecoy_frame (h : execSubDecoy s = .next t) : EngineFrame s t := by
  refine microOp_frame ?_ h
  obtain ⟨data, ghost, g, -, he⟩ := subDecoyEffect_eq s
  rw [he]
  constructor <;> rfl

theorem execShift_frame (h : execShift s = .next t) : EngineFrame s t := by
  unfold execShift at h
  exact microOp_frame (by constructor <;> rfl) h

theorem execRemaskMc_frame (h : execRemaskMc s = .next t) : EngineFrame s t := by
  unfold execRemaskMc at h
  exact microOp_frame (by constructor <;> rfl) h

theorem execMix_frame (h : execMix s = .next t) : EngineFrame s t := by
  unfold execMix at h
  exact microOp_frame (by constructor <;> rfl) h

theorem execArk_frame (h : execArk s = .next t) : EngineFrame s t := by
  unfold execArk at h
  split at h
  · exact microOp_frame (by constructor <;> rfl) h
  · cases h

theorem execGhostUnmask_frame (h : execGhostUnmask s = .next t) : EngineFrame s t := by
  unfold execGhostUnmask at h
  exact microOp_frame (by constructor <;> rfl) h

theorem execGhostMix_frame (h : execGhostMix s = .next t) : EngineFrame s t := by
  unfold execGhostMix at h
  exact microOp_frame (by constructor <;> rfl) h

theorem execFinalArk_frame (h : execFinalArk s = .next t) : EngineFrame s t := by
  unfold execFinalArk at h
  exact microOp_frame (by constructor <;> rfl) h

theorem execCleanup_frame (h : execCleanup s = .next t) : EngineFrame s t := by
  cases h
  constructor <;> rfl

end

/-- Every phase code but KEXP's that goes on keeps the flags, the key stores and the surroundings. -/
theorem exec_phase_frame {p : BitVec 5} {s t : State} (hp : p ≠ Phase.kexp)
    (h : exec (decodePhase p) s = .next t) : EngineFrame s t := by
  unfold decodePhase at h
  split at h
  · cases h
    constructor <;> rfl
  · exact absurd (BitVec.eq_of_toNat_eq ‹p.toNat = 1›) hp
  · exact execSeed_frame h
  · exact execGenmask_frame h
  · exact execBuildSbox_frame h
  · exact execRkFinal_frame h
  · exact execGhostInit_frame h
  · exact execRkMask_frame h
  · exact execR0Remask_frame h
  · exact execArkDecoy_frame h
  · exact execSubUniform_frame h
  · exact execSubDecoy_frame h
  · exact execShift_frame h
  · exact execRemaskMc_frame h
  · exact execMix_frame h
  · exact execArk_frame h
  · exact execGhostUnmask_frame h
  · exact execGhostMix_frame h
  · exact execFinalArk_frame h
  · exact execCleanup_frame h
  all_goals cases h

end Sys2Proof.Machine
end

