-- ==== Sys2Proof/Laws/KeySchedule.lean ====
section
/-! SUPPORT. The words of the key schedule: how many there are, and that a word once made is never changed. -/

namespace Sys2Proof.Machine

theorem expandWord_length (w : List Quad) (i : Nat) : (expandWord w i).length = w.length + 1 := by
  simp [expandWord]

/-- A word made so far stays as it is. -/
theorem wordOf_expandWord_old (w : List Quad) (i j : Nat) (h : j < w.length) :
    wordOf (expandWord w i) j = wordOf w j := by
  simp [wordOf, expandWord, List.getElem?_append_left h]

/-- The new word is the recurrence of R111. -/
theorem wordOf_expandWord_new (w : List Quad) (i : Nat) :
    wordOf (expandWord w i) w.length = xorQuad (wordOf w (i - 4)) (scheduleTemp i (wordOf w (i - 1))) := by
  simp [wordOf, expandWord]

/-- R111's loop from `w[k-1]` on: the old words stay, the new ones follow the recurrence. -/
theorem expand_loop (n k : Nat) (w u : List Quad) (hk : 4 ≤ k) (hw : w.length = k)
    (hu : (List.range' k n).foldl expandWord w = u) :
    u.length = k + n ∧ (∀ j, j < k → wordOf u j = wordOf w j) ∧
    ∀ i, k ≤ i → i < k + n → wordOf u i = xorQuad (wordOf u (i - 4)) (scheduleTemp i (wordOf u (i - 1))) := by
  induction n generalizing k w with
  | zero =>
    subst hu
    exact ⟨by simpa using hw, fun _ _ => rfl, fun i h1 h2 => by omega⟩
  | succ n ih =>
    have hlen : (expandWord w k).length = k + 1 := by rw [expandWord_length, hw]
    rw [List.range'_succ, List.foldl_cons] at hu
    obtain ⟨hlen', hold, hrec⟩ := ih (k + 1) (expandWord w k) (by omega) hlen hu
    refine ⟨by omega, fun j hj => ?_, fun i h1 h2 => ?_⟩
    · rw [hold j (by omega), wordOf_expandWord_old _ _ _ (by omega)]
    · by_cases hik : i = k
      · subst hik
        rw [hold i (by omega), hold (i - 4) (by omega), hold (i - 1) (by omega)]
        have hnew := wordOf_expandWord_new w i
        rw [hw] at hnew
        rw [hnew, wordOf_expandWord_old _ _ _ (by omega), wordOf_expandWord_old _ _ _ (by omega)]
      · exact hrec i (by omega) (by omega)

theorem keyWords_loop (key : Block) :
    (List.range' 4 40).foldl expandWord [column key 0, column key 1, column key 2, column key 3] = keyWords key := by
  rw [keyWords]

/-- The recurrence of R111 on the finished words. -/
theorem keyWords_rec (key : Block) (i : Nat) (h4 : 4 ≤ i) (h43 : i ≤ 43) :
    wordOf (keyWords key) i =
      xorQuad (wordOf (keyWords key) (i - 4)) (scheduleTemp i (wordOf (keyWords key) (i - 1))) :=
  (expand_loop 40 4 _ _ (Nat.le_refl 4) (by rfl) (keyWords_loop key)).2.2 i h4 (by omega)

/-- The first four words are the key. -/
theorem keyWords_key (key : Block) (i : Fin 4) : wordOf (keyWords key) i.val = column key i := by
  rw [(expand_loop 40 4 _ _ (Nat.le_refl 4) (by rfl) (keyWords_loop key)).2.1 i.val i.isLt]
  match i with
  | 0 | 1 | 2 | 3 => rfl

/-- A block of the table from the words (R111). -/
theorem stateAt_keyExpand (key : Block) (r : Fin 11) (n c : Fin 4) :
    stateAt (keyExpand key)[r] n c = (wordOf (keyWords key) (4 * r.val + c.val))[n] := by
  simp [keyExpand]

end Sys2Proof.Machine
end

