-- ==== Sys2Proof/Laws/PerInstr.lean ====
section
/-! SUPPORT. The family `RowMatch`, for all instructions: the encoding of a well-formed instruction is a word of its own
row of the opcode table, in the row's format. -/

namespace Sys2Proof.Laws

/-- The format of a code. -/
def formatOf : Code → Format
  | .ctrl _ => .ctrl
  | .txn _ => .txn
  | .phase _ => .phase

/-- The encoding is in the format of the instruction's row, and its number, where it has one, agrees with the row's
match value on the row's mask. -/
def RowMatch.Statement (i : Instr) : Prop :=
  i.wf = true → formatOf (encode i) = i.row.format ∧
    ∀ w, (encode i).number? = some w → i.row.matchesWord w = true

/-- A mask of the first byte of a record sees nothing of VAL. -/
theorem record_and (b39 w : BitVec 1) (off : BitVec 6) (v : Word) (m : Nat) :
    (record b39 w off v).toNat &&& (m <<< 32) = ((b39 ++ w ++ off).toNat &&& m) <<< 32 := by
  have hv : v.toNat &&& (m <<< 32) = 0 := by
    apply Nat.eq_of_testBit_eq
    intro i
    simp only [Nat.testBit_and, Nat.testBit_shiftLeft, Nat.zero_testBit]
    by_cases hi : i < 32
    · simp [Nat.not_le.mpr hi]
    · have : v.toNat.testBit i = false := BitVec.testBit_toNat v ▸ BitVec.getLsbD_of_ge v i (by omega)
      simp [this]
  rw [record, BitVec.toNat_append, Nat.and_or_distrib_right, hv, Nat.or_zero, Nat.shiftLeft_and_distrib]

/-- A register access matches a row whose mask and match value leave VAL open. -/
theorem regAccess_matches (i : Instr) (write : Bool) (r : Reg) (v : Word) (m p : Nat) (name : String)
    (he : encode i = encodeReg write r v) (hr : i.row = ⟨.txn, name, p <<< 32, m <<< 32⟩)
    (hm : ((0 : BitVec 1) ++ (if write then (1 : BitVec 1) else 0) ++ offsetOf r).toNat &&& m = p) :
    RowMatch.Statement i := by
  intro _
  rw [he, hr]
  refine ⟨rfl, fun w hw => ?_⟩
  simp only [encodeReg, Code.number?, Option.some.injEq] at hw
  subst hw
  simp only [OpcodeRow.matchesWord, record_and, hm, beq_self_eq_true]

/-- A phase code matches its row. -/
theorem phase_matches (i : Instr) (p : BitVec 5) (name : String) (he : encode i = .phase p)
    (hr : i.row = ⟨.phase, name, p.toNat, 0x1F⟩) : RowMatch.Statement i := by
  intro _
  rw [he, hr]
  refine ⟨rfl, fun w hw => ?_⟩
  simp only [Code.number?, Option.some.injEq] at hw
  subst hw
  have h : p.toNat &&& 0x1F = p.toNat := by
    rw [Nat.and_two_pow_sub_one_eq_mod p.toNat 5]
    exact Nat.mod_eq_of_lt p.isLt
  simp [OpcodeRow.matchesWord, h]

namespace RowMatch

theorem nop (hi : BitVec 30) : Statement (.nop hi) := by
  refine fun _ => ⟨rfl, fun w hw => ?_⟩
  simp only [encode, Code.number?, Option.some.injEq] at hw
  subst hw
  show ((hi ++ (0 : BitVec 2)).toNat &&& 3 == 0) = true
  rw [Nat.and_two_pow_sub_one_eq_mod _ 2, BitVec.toNat_append, Nat.shiftLeft_eq]
  simp

theorem setKey : Statement .setKey := by
  refine fun _ => ⟨rfl, fun w hw => ?_⟩
  cases hw
  rfl

theorem encrypt : Statement .encrypt := by
  refine fun _ => ⟨rfl, fun w hw => ?_⟩
  cases hw
  rfl

theorem reject (v : Word) : Statement (.reject v) :=
  fun _ => ⟨rfl, fun w _ => by simp [OpcodeRow.matchesWord, Instr.row]⟩

theorem unadmitted (a : HostAccess) : Statement (.unadmitted a) :=
  fun _ => ⟨rfl, fun w _ => by simp [OpcodeRow.matchesWord, Instr.row]⟩

theorem wrCtrl (v : Word) : Statement (.wrCtrl v) :=
  regAccess_matches _ true .ctrl v 0xFF 0x40 _ rfl rfl (by decide)

theorem wrStatus (v : Word) : Statement (.wrStatus v) :=
  regAccess_matches _ true .status v 0xFF 0x44 _ rfl rfl (by decide)

theorem wrReservedLow (k : Fin 2) (v : Word) : Statement (.wrReservedLow k v) :=
  regAccess_matches _ true (.reservedLow k) v 0xFB 0x48 _ rfl rfl (by revert k; decide)

theorem wrKey (k : Fin 4) (v : Word) : Statement (.wrKey k v) :=
  regAccess_matches _ true (.key k) v 0xF3 0x50 _ rfl rfl (by revert k; decide)

theorem wrData (k : Fin 4) (v : Word) : Statement (.wrData k v) :=
  regAccess_matches _ true (.data k) v 0xF3 0x60 _ rfl rfl (by revert k; decide)

theorem wrReservedHigh (k : Fin 4) (v : Word) : Statement (.wrReservedHigh k v) :=
  regAccess_matches _ true (.reservedHigh k) v 0xF3 0x70 _ rfl rfl (by revert k; decide)

theorem rdCtrl (v : Word) : Statement (.rdCtrl v) :=
  regAccess_matches _ false .ctrl v 0xFF 0x00 _ rfl rfl (by decide)

theorem rdStatus (v : Word) : Statement (.rdStatus v) :=
  regAccess_matches _ false .status v 0xFF 0x04 _ rfl rfl (by decide)

theorem rdReservedLow (k : Fin 2) (v : Word) : Statement (.rdReservedLow k v) :=
  regAccess_matches _ false (.reservedLow k) v 0xFB 0x08 _ rfl rfl (by revert k; decide)

theorem rdKey (k : Fin 4) (v : Word) : Statement (.rdKey k v) :=
  regAccess_matches _ false (.key k) v 0xF3 0x10 _ rfl rfl (by revert k; decide)

theorem rdData (k : Fin 4) (v : Word) : Statement (.rdData k v) :=
  regAccess_matches _ false (.data k) v 0xF3 0x20 _ rfl rfl (by revert k; decide)

theorem rdReservedHigh (k : Fin 4) (v : Word) : Statement (.rdReservedHigh k v) :=
  regAccess_matches _ false (.reservedHigh k) v 0xF3 0x30 _ rfl rfl (by revert k; decide)

theorem idle : Statement .idle := phase_matches _ 0x00 _ rfl rfl
theorem kexp : Statement .kexp := phase_matches _ 0x01 _ rfl rfl
theorem seed : Statement .seed := phase_matches _ 0x02 _ rfl rfl
theorem genmask : Statement .genmask := phase_matches _ 0x03 _ rfl rfl
theorem buildSbox : Statement .buildSbox := phase_matches _ 0x04 _ rfl rfl
theorem rkFinal : Statement .rkFinal := phase_matches _ 0x05 _ rfl rfl
theorem ghostInit : Statement .ghostInit := phase_matches _ 0x06 _ rfl rfl
theorem rkMask : Statement .rkMask := phase_matches _ 0x07 _ rfl rfl
theorem r0Remask : Statement .r0Remask := phase_matches _ 0x08 _ rfl rfl
theorem arkDecoy : Statement .arkDecoy := phase_matches _ 0x09 _ rfl rfl
theorem subUniform : Statement .subUniform := phase_matches _ 0x0A _ rfl rfl
theorem subDecoy : Statement .subDecoy := phase_matches _ 0x0B _ rfl rfl
theorem shift : Statement .shift := phase_matches _ 0x0C _ rfl rfl
theorem remaskMc : Statement .remaskMc := phase_matches _ 0x0D _ rfl rfl
theorem mix : Statement .mix := phase_matches _ 0x0E _ rfl rfl
theorem ark : Statement .ark := phase_matches _ 0x0F _ rfl rfl
theorem ghostUnmask : Statement .ghostUnmask := phase_matches _ 0x10 _ rfl rfl
theorem ghostMix : Statement .ghostMix := phase_matches _ 0x11 _ rfl rfl
theorem finalArk : Statement .finalArk := phase_matches _ 0x12 _ rfl rfl
theorem cleanup : Statement .cleanup := phase_matches _ 0x13 _ rfl rfl
theorem reservedPhase14 : Statement .reservedPhase14 := phase_matches _ 0x14 _ rfl rfl
theorem reservedPhase15 : Statement .reservedPhase15 := phase_matches _ 0x15 _ rfl rfl
theorem reservedPhase16 : Statement .reservedPhase16 := phase_matches _ 0x16 _ rfl rfl
theorem reservedPhase17 : Statement .reservedPhase17 := phase_matches _ 0x17 _ rfl rfl
theorem reservedPhase18 : Statement .reservedPhase18 := phase_matches _ 0x18 _ rfl rfl
theorem reservedPhase19 : Statement .reservedPhase19 := phase_matches _ 0x19 _ rfl rfl
theorem reservedPhase1A : Statement .reservedPhase1A := phase_matches _ 0x1A _ rfl rfl
theorem reservedPhase1B : Statement .reservedPhase1B := phase_matches _ 0x1B _ rfl rfl
theorem reservedPhase1C : Statement .reservedPhase1C := phase_matches _ 0x1C _ rfl rfl
theorem reservedPhase1D : Statement .reservedPhase1D := phase_matches _ 0x1D _ rfl rfl
theorem reservedPhase1E : Statement .reservedPhase1E := phase_matches _ 0x1E _ rfl rfl
theorem reservedPhase1F : Statement .reservedPhase1F := phase_matches _ 0x1F _ rfl rfl

end RowMatch
end Sys2Proof.Laws
end

