-- ==== Sys2Proof/Tests/Slice0.lean ====
section
/-! SUPPORT. The model's own tests. Expected values are the spec's: the encodings of spec/30_encoding.md, the tables of
spec/40_gf_tables.md and the vectors of spec/95_test_vectors.md (the trace of its section 2.7 is called V1 here). Then, for
every obligation with hypotheses, a witness that meets them. -/

namespace Sys2Proof.Tests

open Sys2Proof.Machine Sys2Proof.Safety

set_option Elab.async false

/-! ### Well-formedness: each check refuses an ill-formed term -/

theorem test_wf_refuses_reject_of_nop : (Instr.reject 0xFFFFFFFC).wf = false := by decide

theorem test_wf_refuses_reject_of_set_key : (Instr.reject 0x00000001).wf = false := by decide

theorem test_wf_refuses_reject_of_encrypt : (Instr.reject 0x00000002).wf = false := by decide

theorem test_wf_refuses_unadmitted_record : (Instr.unadmitted (.record 0x4000000001)).wf = false := by decide

theorem test_wf_refuses_unadmitted_bus : (Instr.unadmitted (.bus true (Config.base + 0x3C) 32 0)).wf = false := by
  simp [Instr.wf, HostAccess.admitted]

/-! ### Decoding: every constructor from a word written out from its encoding -/

/-- R70, R74: bits 31:4 RSVD, 3:2 KEYLEN, 1:0 CMD. -/
theorem test_decode_ctrl :
    decodeTableWord 32 0b0000000000000000000000000000_00_00 = some (.nop 0) ∧
    decodeTableWord 32 0b1000000000000000000000000000_01_00 = some (.nop 0x20000001) ∧
    decodeTableWord 32 0b0000000000000000000000000000_00_01 = some .setKey ∧
    decodeTableWord 32 0b0000000000000000000000000000_00_10 = some .encrypt ∧
    decodeTableWord 32 0b0000000000000000000000000000_00_11 = some (.reject 3) ∧
    decodeTableWord 32 0b0000000000000000000000000001_00_10 = some (.reject 0x12) ∧
    decodeTableWord 32 0b0000000000000000000000000000_11_10 = some (.reject 0x0E) := by decide

/-- R75, R51: bit 39 zero, bit 38 W, 37:32 OFF, 31:0 VAL. -/
theorem test_decode_txn_writes :
    decodeTableWord 40 0b0_1_000000_00000000000000000000000000000010 = some (.wrCtrl 2) ∧
    decodeTableWord 40 0b0_1_000100_11111111111111111111111111111111 = some (.wrStatus 0xFFFFFFFF) ∧
    decodeTableWord 40 0b0_1_001000_00000000000000000000000000000001 = some (.wrReservedLow 0 1) ∧
    decodeTableWord 40 0b0_1_001100_00000000000000000000000000000001 = some (.wrReservedLow 1 1) ∧
    decodeTableWord 40 0b0_1_010000_00010110000101010111111000101011 = some (.wrKey 0 0x16157E2B) ∧
    decodeTableWord 40 0b0_1_011100_00111100010011111100111100001001 = some (.wrKey 3 0x3C4FCF09) ∧
    decodeTableWord 40 0b0_1_100000_11100010101111101100000101101011 = some (.wrData 0 0xE2BEC16B) ∧
    decodeTableWord 40 0b0_1_101100_00101010000101111001001101110011 = some (.wrData 3 0x2A179373) ∧
    decodeTableWord 40 0b0_1_110000_11011110101011011011111011101111 = some (.wrReservedHigh 0 0xDEADBEEF) ∧
    decodeTableWord 40 0b0_1_111100_00000000000000000000000000000000 = some (.wrReservedHigh 3 0) := by decide

theorem test_decode_txn_reads :
    decodeTableWord 40 0b0_0_000000_00000000000000000000000000000000 = some (.rdCtrl 0) ∧
    decodeTableWord 40 0b0_0_000100_00000000000000000000000000000000 = some (.rdStatus 0) ∧
    decodeTableWord 40 0b0_0_001100_00000000000000000000000000000000 = some (.rdReservedLow 1 0) ∧
    decodeTableWord 40 0b0_0_010100_00000000000000000000000000000000 = some (.rdKey 1 0) ∧
    decodeTableWord 40 0b0_0_100000_00000000000000000000000000000000 = some (.rdData 0 0) ∧
    decodeTableWord 40 0b0_0_101000_00000000000000000000000000000000 = some (.rdData 2 0) ∧
    decodeTableWord 40 0b0_0_111000_00000000000000000000000000000000 = some (.rdReservedHigh 2 0) := by decide

/-- R75, R55: bit 39 set, and OFF[1:0] not zero. -/
theorem test_decode_unadmitted :
    decodeTableWord 40 0b1_0_000000_00000000000000000000000000000000 = some (.unadmitted (.record 0x8000000000)) ∧
    decodeTableWord 40 0b0_1_000001_00000000000000000000000000000000 = some (.unadmitted (.record 0x4100000000)) ∧
    decodeTableWord 40 0b0_0_000010_00000000000000000000000000000000 = some (.unadmitted (.record 0x0200000000)) := by
  decide

/-- R11, R55: a bus write of DATA1 at BASE + 0x24, and the accesses one past the window and 16 bits wide. -/
theorem test_decode_bus :
    decodeAccess (.bus true (Config.base + 0x24) 32 7) = .wrData 1 7 ∧
    decodeAccess (.bus true (Config.base + 0x40) 32 7) = .unadmitted (.bus true (Config.base + 0x40) 32 7) ∧
    decodeAccess (.bus false Config.base 16 0) = .unadmitted (.bus false Config.base 16 0) := by
  refine ⟨?_, ?_, ?_⟩ <;> simp [decodeAccess, busReg, regAt, regInstr]

/-- R78: the 5-bit code in a byte, bits 7:5 zero. -/
theorem test_decode_phase_setup :
    decodeTableWord 8 0b00000000 = some .idle ∧
    decodeTableWord 8 0b00000001 = some .kexp ∧
    decodeTableWord 8 0b00000010 = some .seed ∧
    decodeTableWord 8 0b00000011 = some .genmask ∧
    decodeTableWord 8 0b00000100 = some .buildSbox ∧
    decodeTableWord 8 0b00000101 = some .rkFinal ∧
    decodeTableWord 8 0b00000110 = some .ghostInit ∧
    decodeTableWord 8 0b00000111 = some .rkMask := by
  decide

/-- R78. -/
theorem test_decode_phase_rounds :
    decodeTableWord 8 0b00001000 = some .r0Remask ∧
    decodeTableWord 8 0b00001001 = some .arkDecoy ∧
    decodeTableWord 8 0b00001010 = some .subUniform ∧
    decodeTableWord 8 0b00001011 = some .subDecoy ∧
    decodeTableWord 8 0b00001100 = some .shift ∧
    decodeTableWord 8 0b00001101 = some .remaskMc ∧
    decodeTableWord 8 0b00001110 = some .mix ∧
    decodeTableWord 8 0b00001111 = some .ark ∧
    decodeTableWord 8 0b00010000 = some .ghostUnmask ∧
    decodeTableWord 8 0b00010001 = some .ghostMix ∧
    decodeTableWord 8 0b00010010 = some .finalArk ∧
    decodeTableWord 8 0b00010011 = some .cleanup := by
  decide

/-- R78. -/
theorem test_decode_phase_reserved :
    decodeTableWord 8 0b00010100 = some .reservedPhase14 ∧
    decodeTableWord 8 0b00010101 = some .reservedPhase15 ∧
    decodeTableWord 8 0b00010110 = some .reservedPhase16 ∧
    decodeTableWord 8 0b00010111 = some .reservedPhase17 ∧
    decodeTableWord 8 0b00011000 = some .reservedPhase18 ∧
    decodeTableWord 8 0b00011001 = some .reservedPhase19 ∧
    decodeTableWord 8 0b00011010 = some .reservedPhase1A ∧
    decodeTableWord 8 0b00011011 = some .reservedPhase1B ∧
    decodeTableWord 8 0b00011100 = some .reservedPhase1C ∧
    decodeTableWord 8 0b00011101 = some .reservedPhase1D ∧
    decodeTableWord 8 0b00011110 = some .reservedPhase1E ∧
    decodeTableWord 8 0b00011111 = some .reservedPhase1F := by
  decide

/-- R78, R79: no 5-bit code, no 32-bit word, no 40-bit record, and a length no format has. -/
theorem test_decode_rejects :
    decodeWord 8 0x20 = .error .phaseTooWide ∧ decodeWord 32 0x100000000 = .error .wordTooWide ∧
    decodeWord 40 0x10000000000 = .error .wordTooWide ∧ decodeWord 48 0 = .error .noSuchFormat :=
  ⟨rfl, rfl, rfl, rfl⟩

/-! ### Bytes, columns and states (spec/40_gf_tables.md; spec/95_test_vectors.md section 2.2) -/

/-- Sixteen bytes from 32 hex digits, byte 0 first. -/
def hex (n : Nat) : Block := tabulate fun b => BitVec.ofNat 8 (n >>> (8 * (15 - b.val)))

/-- A mask vector from 20 hex digits, slot 0 first. -/
def slots (n : Nat) : MaskVec := tabulate fun k => BitVec.ofNat 8 (n >>> (8 * (9 - k.val)))

/-- The contents of MUL2 as R92 prints them. Row = high nibble, column = low nibble. -/
def mul2Rows : List (List Byte) :=
  [[0x00, 0x02, 0x04, 0x06, 0x08, 0x0a, 0x0c, 0x0e, 0x10, 0x12, 0x14, 0x16, 0x18, 0x1a, 0x1c, 0x1e],
   [0x20, 0x22, 0x24, 0x26, 0x28, 0x2a, 0x2c, 0x2e, 0x30, 0x32, 0x34, 0x36, 0x38, 0x3a, 0x3c, 0x3e],
   [0x40, 0x42, 0x44, 0x46, 0x48, 0x4a, 0x4c, 0x4e, 0x50, 0x52, 0x54, 0x56, 0x58, 0x5a, 0x5c, 0x5e],
   [0x60, 0x62, 0x64, 0x66, 0x68, 0x6a, 0x6c, 0x6e, 0x70, 0x72, 0x74, 0x76, 0x78, 0x7a, 0x7c, 0x7e],
   [0x80, 0x82, 0x84, 0x86, 0x88, 0x8a, 0x8c, 0x8e, 0x90, 0x92, 0x94, 0x96, 0x98, 0x9a, 0x9c, 0x9e],
   [0xa0, 0xa2, 0xa4, 0xa6, 0xa8, 0xaa, 0xac, 0xae, 0xb0, 0xb2, 0xb4, 0xb6, 0xb8, 0xba, 0xbc, 0xbe],
   [0xc0, 0xc2, 0xc4, 0xc6, 0xc8, 0xca, 0xcc, 0xce, 0xd0, 0xd2, 0xd4, 0xd6, 0xd8, 0xda, 0xdc, 0xde],
   [0xe0, 0xe2, 0xe4, 0xe6, 0xe8, 0xea, 0xec, 0xee, 0xf0, 0xf2, 0xf4, 0xf6, 0xf8, 0xfa, 0xfc, 0xfe]] ++
  [[0x1b, 0x19, 0x1f, 0x1d, 0x13, 0x11, 0x17, 0x15, 0x0b, 0x09, 0x0f, 0x0d, 0x03, 0x01, 0x07, 0x05],
   [0x3b, 0x39, 0x3f, 0x3d, 0x33, 0x31, 0x37, 0x35, 0x2b, 0x29, 0x2f, 0x2d, 0x23, 0x21, 0x27, 0x25],
   [0x5b, 0x59, 0x5f, 0x5d, 0x53, 0x51, 0x57, 0x55, 0x4b, 0x49, 0x4f, 0x4d, 0x43, 0x41, 0x47, 0x45],
   [0x7b, 0x79, 0x7f, 0x7d, 0x73, 0x71, 0x77, 0x75, 0x6b, 0x69, 0x6f, 0x6d, 0x63, 0x61, 0x67, 0x65],
   [0x9b, 0x99, 0x9f, 0x9d, 0x93, 0x91, 0x97, 0x95, 0x8b, 0x89, 0x8f, 0x8d, 0x83, 0x81, 0x87, 0x85],
   [0xbb, 0xb9, 0xbf, 0xbd, 0xb3, 0xb1, 0xb7, 0xb5, 0xab, 0xa9, 0xaf, 0xad, 0xa3, 0xa1, 0xa7, 0xa5],
   [0xdb, 0xd9, 0xdf, 0xdd, 0xd3, 0xd1, 0xd7, 0xd5, 0xcb, 0xc9, 0xcf, 0xcd, 0xc3, 0xc1, 0xc7, 0xc5],
   [0xfb, 0xf9, 0xff, 0xfd, 0xf3, 0xf1, 0xf7, 0xf5, 0xeb, 0xe9, 0xef, 0xed, 0xe3, 0xe1, 0xe7, 0xe5]]

/-- The contents of MUL3 as R93 prints them. Row = high nibble, column = low nibble. -/
def mul3Rows : List (List Byte) :=
  [[0x00, 0x03, 0x06, 0x05, 0x0c, 0x0f, 0x0a, 0x09, 0x18, 0x1b, 0x1e, 0x1d, 0x14, 0x17, 0x12, 0x11],
   [0x30, 0x33, 0x36, 0x35, 0x3c, 0x3f, 0x3a, 0x39, 0x28, 0x2b, 0x2e, 0x2d, 0x24, 0x27, 0x22, 0x21],
   [0x60, 0x63, 0x66, 0x65, 0x6c, 0x6f, 0x6a, 0x69, 0x78, 0x7b, 0x7e, 0x7d, 0x74, 0x77, 0x72, 0x71],
   [0x50, 0x53, 0x56, 0x55, 0x5c, 0x5f, 0x5a, 0x59, 0x48, 0x4b, 0x4e, 0x4d, 0x44, 0x47, 0x42, 0x41],
   [0xc0, 0xc3, 0xc6, 0xc5, 0xcc, 0xcf, 0xca, 0xc9, 0xd8, 0xdb, 0xde, 0xdd, 0xd4, 0xd7, 0xd2, 0xd1],
   [0xf0, 0xf3, 0xf6, 0xf5, 0xfc, 0xff, 0xfa, 0xf9, 0xe8, 0xeb, 0xee, 0xed, 0xe4, 0xe7, 0xe2, 0xe1],
   [0xa0, 0xa3, 0xa6, 0xa5, 0xac, 0xaf, 0xaa, 0xa9, 0xb8, 0xbb, 0xbe, 0xbd, 0xb4, 0xb7, 0xb2, 0xb1],
   [0x90, 0x93, 0x96, 0x95, 0x9c, 0x9f, 0x9a, 0x99, 0x88, 0x8b, 0x8e, 0x8d, 0x84, 0x87, 0x82, 0x81]] ++
  [[0x9b, 0x98, 0x9d, 0x9e, 0x97, 0x94, 0x91, 0x92, 0x83, 0x80, 0x85, 0x86, 0x8f, 0x8c, 0x89, 0x8a],
   [0xab, 0xa8, 0xad, 0xae, 0xa7, 0xa4, 0xa1, 0xa2, 0xb3, 0xb0, 0xb5, 0xb6, 0xbf, 0xbc, 0xb9, 0xba],
   [0xfb, 0xf8, 0xfd, 0xfe, 0xf7, 0xf4, 0xf1, 0xf2, 0xe3, 0xe0, 0xe5, 0xe6, 0xef, 0xec, 0xe9, 0xea],
   [0xcb, 0xc8, 0xcd, 0xce, 0xc7, 0xc4, 0xc1, 0xc2, 0xd3, 0xd0, 0xd5, 0xd6, 0xdf, 0xdc, 0xd9, 0xda],
   [0x5b, 0x58, 0x5d, 0x5e, 0x57, 0x54, 0x51, 0x52, 0x43, 0x40, 0x45, 0x46, 0x4f, 0x4c, 0x49, 0x4a],
   [0x6b, 0x68, 0x6d, 0x6e, 0x67, 0x64, 0x61, 0x62, 0x73, 0x70, 0x75, 0x76, 0x7f, 0x7c, 0x79, 0x7a],
   [0x3b, 0x38, 0x3d, 0x3e, 0x37, 0x34, 0x31, 0x32, 0x23, 0x20, 0x25, 0x26, 0x2f, 0x2c, 0x29, 0x2a],
   [0x0b, 0x08, 0x0d, 0x0e, 0x07, 0x04, 0x01, 0x02, 0x13, 0x10, 0x15, 0x16, 0x1f, 0x1c, 0x19, 0x1a]]

/-- R92: every entry of the printed table. -/
theorem test_mul2_table : ∀ x : Byte, mul2 x = (mul2Rows.getD (x.toNat / 16) []).getD (x.toNat % 16) 0 := by
  decide +kernel

/-- R93: every entry of the printed table. -/
theorem test_mul3_table : ∀ x : Byte, mul3 x = (mul3Rows.getD (x.toNat / 16) []).getD (x.toNat % 16) 0 := by
  decide +kernel

theorem test_sbox_entries :
    sbox 0x00 = 0x63 ∧ sbox 0x01 = 0x7C ∧ sbox 0x53 = 0xED ∧ sbox 0x10 = 0xCA ∧ sbox 0xFF = 0x16 ∧ sbox 0xC9 = 0xDD := by
  decide +kernel

theorem test_gmul : gmul 0x57 0x13 = 0xFE ∧ xtime 0x80 = 0x1B ∧ xtime 0xFF = 0xE5 := by decide +kernel

theorem test_mix_col :
    mixCol #v[0xDB, 0x13, 0x53, 0x45] = #v[0x8E, 0x4D, 0xA1, 0xBC] ∧
    mixCol #v[0x2D, 0x26, 0x31, 0x4C] = #v[0x4D, 0x7E, 0xBD, 0xF8] := by decide +kernel

theorem test_shift_rows :
    shiftRows (hex 0x000102030405060708090A0B0C0D0E0F) = hex 0x00050A0F04090E03080D02070C01060B := by decide +kernel

theorem test_mix_columns :
    mixColumns (hex 0xD4BF5D30E0B452AEB84111F11E2798E5) = hex 0x046681E5E0CB199A48F8D37A2806264C := by decide +kernel

/-- Section 2.5. -/
theorem test_remask_state :
    remaskState (hex 0x000102030405060708090A0B0C0D0E0F) #v[0x11, 0x22, 0x33, 0x44] #v[0xA0, 0xB0, 0xC0, 0xD0] =
      hex 0xB193F197B597F593B99BF99FBD9FFD9B := by decide +kernel

/-- The textbook cipher of the statements: FIPS-197 Appendix C.1 (section 1.3). -/
theorem test_cipher :
    aes128 (hex 0x000102030405060708090A0B0C0D0E0F) (hex 0x00112233445566778899AABBCCDDEEFF) =
      hex 0x69C4E0D86A7B0430D8CDB78070B4C55A := by decide +kernel

/-! ### One step of each instruction

V1: key 2b7e1516..., block 6bc1bee2..., mask source `lcgRef`; the stores of section 2.3 and 2.7. -/

/-- A field of the next state; none when the instruction stops. -/
def after {α : Type} (i : Instr) (s : State) (f : State → α) : Option α :=
  match exec i s with
  | .next t => some (f t)
  | .fault _ => none
  | .refused _ => none

def v1Key : Block := hex 0x2B7E151628AED2A6ABF7158809CF4F3C
def v1Block : Block := hex 0x6BC1BEE22E409F96E93D7E117393172A

/-- The state with V1's masks and table and the given DATA, GHOST and ROUND. -/
def v1 (data ghost : Nat) (round : BitVec 4) : State :=
  { State.reset with
    keyValid := true, data := hex data, ghost := hex ghost, round := round,
    mask := slots 0x29C6735ECC292E75EB72, dm1 := slots 0x93A2A50561C2603D6FA3, dm2 := slots 0x3E99E4C2180FEAE229A0,
    sm := buildSM 0xCC 0x29 }

/-- The pair a step leaves in PHASE and ROUND. -/
def pair (s : State) : BitVec 5 × BitVec 4 := (s.phase, s.round)

theorem test_kexp :
    after .kexp { State.reset with keyIn := v1Key } (fun t => (t.rk[1], t.rk[10], t.keyValid, pair t)) =
      some (hex 0xA0FAFE1788542CB123A339392A6C7605, hex 0xD014F9A8C9EE2589E13F0CC8B6630CA6, true, 0x00, 0) := by
  decide +kernel

theorem test_kexp_all_ones :
    after .kexp { State.reset with keyIn := hex 0xFFFFFFFFFFFFFFFFFFFFFFFFFFFFFFFF } (fun t => t.rk[10]) =
      some (hex 0xD60A3588E472F07B82D2D7858CD7C326) := by decide +kernel

theorem test_seed :
    after .seed { State.reset with data := v1Block } (fun t => (t.gen, pair t)) = some (.lcg 0x4F482FDF, 0x03, 0) := by
  decide +kernel

theorem test_genmask :
    after .genmask { State.reset with gen := .lcg 0x4F482FDF } (fun t => (t.mask, t.dm1, t.dm2, t.gen)) =
      some (slots 0x29C6735ECC292E75EB72, slots 0x93A2A50561C2603D6FA3, slots 0x3E99E4C2180FEAE229A0,
        .lcg 0xB1296F65) := by decide +kernel

/-- Section 2.10: a draw list, here with 0x01, 0x01, 0x02, 0x03 in slots 0..3 of MASK and 0x11 elsewhere. -/
theorem test_genmask_list :
    after .genmask { State.reset with
        gen := .list 0x11 [0x11, 0x11, 0x01, 0x11, 0x11, 0x01, 0x11, 0x11, 0x02, 0x11, 0x11, 0x03, 0x11, 0x11] 0 }
      (fun t => t.mask) = some (slots 0x01010203111100060106) := by decide +kernel

theorem test_build_sbox :
    after .buildSbox (v1 0 0 0) (fun t => (smAt t.sm 0xCC, smAt t.sm 0x00, smAt t.sm 0x80, smAt t.sm 0xFF)) =
      some (0x4A, 0x62, 0x00, 0xEA) := by decide +kernel

theorem test_rk_final :
    after .rkFinal { v1 0 0 0 with rk := (Vector.replicate 11 v1Key).set 10 (hex 0xD014F9A8C9EE2589E13F0CC8B6630CA6) }
      (fun t => (t.rkm[9], t.rkm[10])) = some (v1Key, hex 0xF93DD081E0C70CA0C81625E19F4A258F) := by decide +kernel

theorem test_ghost_init :
    after .ghostInit (v1 0x6BC1BEE22E409F96E93D7E117393172A 0 0) (fun t => t.ghost) =
      some (hex 0xE11EF8E1A49FD99563E23812F94C5129) := by decide +kernel

theorem test_rk_mask :
    after .rkMask { v1 0 0 0 with rkm := (Vector.replicate 11 v1Key).set 9 (hex 0xAC7766F319FADC2128D12941575C006E) }
      (fun t => (t.rkm[0], t.rkm[9], t.rkm[10])) =
      some (hex 0xC9C732A8CA17F518494E3236EB766882, hex 0x4ECE414DFB43FB9FCA680EFFB5E527D0, v1Key) := by decide +kernel

theorem test_r0_remask :
    after .r0Remask (v1 0x6BC1BEE22E409F96E93D7E117393172A 0 0) (fun t => (t.data, pair t)) =
      some (hex 0x45B45590003574E4C74895635DE6FC58, 0x09, 0) := by decide +kernel

/-- Step 8 of V1. -/
theorem test_ark_decoy :
    after .arkDecoy { v1 0x45B45590003574E4C74895635DE6FC58 0xE11EF8E1A49FD99563E23812F94C5129 0 with
        rkm := (Vector.replicate 11 zeroBlock).set 0 (hex 0xC9C732A8CA17F518494E3236EB766882) }
      (fun t => (t.data, t.ghost, pair t)) =
      some (hex 0x8C736738CA2281FC8E06A755B69094DA, hex 0x8D7C6FECCB2D89288F09AF81B79F9C0E, 0x0B, 1) := by
  decide +kernel

/-- Step 14 of V1. -/
theorem test_sub_uniform :
    after .subUniform (v1 0x3EA92419D31EF5B70F755BA15CBA9C90 0xCA4AECB0A20FE8569EFA6A9AD252B58E 2)
      (fun t => (t.data, t.ghost, pair t)) =
      some (hex 0xA064B22AE99C3B08077FA11549117A63, hex 0x466D9E39B6071F91292C0D985B229F05, 0x0C, 2) := by
  decide +kernel

/-- Step 9 of V1: the 16 draws go to GHOST row by row. -/
theorem test_sub_decoy :
    after .subDecoy { v1 0x8C736738CA2281FC8E06A755B69094DA 0x8D7C6FECCB2D89288F09AF81B79F9C0E 1 with
        gen := .lcg 0xB1296F65 } (fun t => (t.data, t.ghost, t.gen)) =
      some (hex 0x20214B964601CA2D055D56C7F363436E, hex 0xB3639E5BC713FA5B6F830075C6AF9DED, .lcg 0x5FEDFBD5) := by
  decide +kernel

/-- Step 10 of V1. -/
theorem test_shift :
    after .shift (v1 0x20214B964601CA2D055D56C7F363436E 0xB3639E5BC713FA5B6F830075C6AF9DED 1)
      (fun t => (t.data, t.ghost, pair t)) =
      some (hex 0x2001566E465D439605634B2DF321CAC7, hex 0xB31300EDC7839D5B6FAF9E5BC663FA75, 0x0D, 1) := by
  decide +kernel

/-- Step 55 of V1: the last round goes on to GHOST_UNMASK. -/
theorem test_shift_last_round :
    after .shift (v1 0xC32CEFC0EDEACA1260BDAB18BB883A35 0 10) (fun t => (t.data, pair t)) =
      some (hex 0xC3EAAB35EDBD3AC06088EF12BB2CCA18, 0x10, 10) := by decide +kernel

/-- Step 11 of V1. -/
theorem test_remask_mc :
    after .remaskMc (v1 0x2001566E465D439605634B2DF321CAC7 0xB31300EDC7839D5B6FAF9E5BC663FA75 1)
      (fun t => (t.data, t.ghost, pair t)) =
      some (hex 0x20EE0C1946B219E1058C115AF3CE90B0, hex 0x2FBEAAE75B2E3751F30234515ACE507F, 0x0E, 1) := by
  decide +kernel

/-- Step 12 of V1: round 1 goes on to ARK. -/
theorem test_mix :
    after .mix (v1 0x20EE0C1946B219E1058C115AF3CE90B0 0x2FBEAAE75B2E3751F30234515ACE507F 1)
      (fun t => (t.data, t.ghost, pair t)) =
      some (hex 0x7CEAFDB0B9F3FEB8CE6F4526946FCD2B, hex 0xCA4AECB0A20FE8569EFA6A9AD252B58E, 0x0F, 1) := by
  decide +kernel

/-- Step 17 of V1: round 2 goes on to ARK_DECOY. -/
theorem test_mix_decoy_round :
    after .mix (v1 0xA073FB14E990205D07FEE87F498B6162 0 2) (fun t => (t.data, pair t)) =
      some (hex 0x2144025B1FEFDE2A80BCB3E11785A6F5, 0x09, 2) := by decide +kernel

/-- Step 13 of V1: GHOST stays. -/
theorem test_ark :
    after .ark { v1 0x7CEAFDB0B9F3FEB8CE6F4526946FCD2B 0xCA4AECB0A20FE8569EFA6A9AD252B58E 1 with
        rkm := (Vector.replicate 11 zeroBlock).set 1 (hex 0x4243D9A96AED0B0FC11A1E87C8D551BB) }
      (fun t => (t.data, t.ghost, pair t)) =
      some (hex 0x3EA92419D31EF5B70F755BA15CBA9C90, hex 0xCA4AECB0A20FE8569EFA6A9AD252B58E, 0x0A, 2) := by
  decide +kernel

/-- Step 56 of V1. -/
theorem test_ghost_unmask :
    after .ghostUnmask (v1 0 0xEB63E00FC02B4985E23F21CB9F56373A 10) (fun t => (t.ghost, pair t)) =
      some (hex 0x61BCA60C4AF40F8668E067C815897139, 0x11, 10) := by decide +kernel

/-- Step 57 of V1. -/
theorem test_ghost_mix :
    after .ghostMix (v1 0 0x61BCA60C4AF40F8668E067C815897139 10) (fun t => (t.ghost, pair t)) =
      some (hex 0xB7FF9EA11A2E313244D205B4E2B635B5, 0x12, 10) := by decide +kernel

/-- Step 58 of V1: the ciphertext. -/
theorem test_final_ark :
    after .finalArk { v1 0xC3EAAB35EDBD3AC06088EF12BB2CCA18 0 10 with
        rkm := (Vector.replicate 11 zeroBlock).set 10 (hex 0xF93DD081E0C70CA0C81625E19F4A258F) }
      (fun t => (t.data, pair t)) = some (hex 0x3AD77BB40D7A3660A89ECAF32466EF97, 0x13, 10) := by decide +kernel

/-- Step 59 of V1. -/
theorem test_cleanup :
    after .cleanup (v1 0x3AD77BB40D7A3660A89ECAF32466EF97 0xB7FF9EA11A2E313244D205B4E2B635B5 10)
      (fun t => (t.data, t.ghost, pair t)) = some (hex 0x3AD77BB40D7A3660A89ECAF32466EF97, zeroBlock, 0x00, 0) := by
  decide +kernel

theorem test_idle : after .idle (v1 1 2 0) (fun t => (t.data, t.ghost)) = some (hex 1, hex 2) := by decide +kernel

theorem test_reserved_phase :
    exec .reservedPhase14 State.reset = .fault (.reservedPhase 0x14 0) ∧
    exec .reservedPhase1F State.reset = .fault (.reservedPhase 0x1F 0) := ⟨rfl, rfl⟩

/-- Section 2.11: a CTRL write in a state with ERR = 1 and no key: ERR and PHASE after it. -/
theorem test_ctrl_without_key :
    [0x00000000, 0x80000000, 0x00000001, 0x00000002, 0x00000003, 0x00000005, 0x80000001].map
      (fun v => after (.wrCtrl v) { State.reset with err := 1 } (fun t => (t.err, t.phase))) =
      [some (1, 0x00), some (1, 0x00), some (0, 0x01), some (1, 0x00), some (1, 0x00), some (1, 0x00), some (1, 0x00)] := by
  decide +kernel

/-- Section 2.11, with a key. -/
theorem test_ctrl_with_key :
    [0xFFFFFFFC, 0x00000001, 0x00000002, 0x00000006, 0x00000012, 0xFFFFFFFF].map
      (fun v => after (.wrCtrl v) { State.reset with err := 1, keyValid := true } (fun t => (t.err, t.phase))) =
      [some (1, 0x00), some (0, 0x01), some (0, 0x02), some (1, 0x00), some (1, 0x00), some (1, 0x00)] := by
  decide +kernel

/-- Section 3.1 (P1): the four KEY words give the key. -/
theorem test_wr_key :
    setWordAt (setWordAt (setWordAt (setWordAt zeroBlock 0 0x16157E2B) 1 0xA6D2AE28) 2 0x8815F7AB) 3 0x3C4FCF09 = v1Key := by
  decide +kernel

/-- Section 2.12: `wr DATA1, 0x11223344` stores 44 33 22 11 in bytes 4..7. -/
theorem test_wr_data :
    after (.wrData 1 0x11223344) (v1 0 0 0) (fun t => t.data) = some (hex 0x00000000443322110000000000000000) := by
  decide +kernel

/-- Section 2.12: the words of the ciphertext read back. -/
theorem test_rd_data :
    after (.rdData 0 0) (v1 0x3AD77BB40D7A3660A89ECAF32466EF97 0 0) (fun t => t.answers) = some [0xB47BD73A] ∧
    after (.rdData 3 0) (v1 0x3AD77BB40D7A3660A89ECAF32466EF97 0 0) (fun t => t.answers) = some [0x97EF6624] := by
  decide +kernel

/-- Sections 2.12 and 3.2: STATUS with a key and no error, and after a refused ENCRYPT. -/
theorem test_rd_status :
    after (.rdStatus 0) { State.reset with keyValid := true } (fun t => t.answers) = some [0x00000001] ∧
    after (.rdStatus 0) { State.reset with err := 1 } (fun t => t.answers) = some [0x00000002] := by decide +kernel

/-- Section 2.12: write-only and reserved registers read zero. -/
theorem test_rd_zero :
    after (.rdKey 0 0) { State.reset with keyIn := v1Key } (fun t => t.answers) = some [0] ∧
    after (.rdCtrl 0) (v1 1 1 0) (fun t => t.answers) = some [0] ∧
    after (.rdReservedLow 0 0) (v1 1 1 0) (fun t => t.answers) = some [0] ∧
    after (.rdReservedHigh 3 0) (v1 1 1 0) (fun t => t.answers) = some [0] := by decide +kernel

/-- Section 2.12: an access at offset 0x02 has no step. -/
theorem test_unadmitted :
    exec (decodeRecord 0x0200000000) State.reset = .refused (.unadmittedAccess 2 32) := rfl

/-- R221: a reset between two micro-operations abandons the command. -/
theorem test_reset_abandons :
    step { v1 1 2 3 with phase := Phase.shift, resets := [0] } =
      .next State.reset := rfl

/-! ### Witnesses of the statements' hypotheses -/

/-- DecodeEncodeRoundTrip. -/
theorem witness_well_formed :
    (Instr.nop 0x3FFFFFFF).wf = true ∧ (Instr.reject 0xFFFFFFFF).wf = true ∧ (Instr.rdData 3 0xFFFFFFFF).wf = true ∧
    (Instr.unadmitted (.record 0xFFFFFFFFFF)).wf = true ∧ (Instr.unadmitted (.bus true Config.base 16 0)).wf = true ∧
    Instr.cleanup.wf = true := by
  refine ⟨by decide, by decide, by decide, by decide, ?_, by decide⟩
  simp [Instr.wf, HostAccess.admitted]

/-- AdmissionRule: the ends of the window, and the accesses just outside each of its conditions. -/
theorem witness_admission :
    (∃ addr width off : Nat, addr = Config.base + off ∧ width = 32 ∧ off % 4 = 0 ∧ off ≤ 0x3C ∧ off = 0x3C) ∧
    (∃ addr width off : Nat, addr = Config.base + off ∧ width = 32 ∧ off % 4 = 0 ∧ off ≤ 0x3C ∧ off = 0) ∧
    (∃ addr : Nat, 0x3C < addr - Config.base) ∧ (∃ addr : Nat, (addr - Config.base) % 4 ≠ 0) ∧ (∃ width : Nat, width ≠ 32) :=
  ⟨⟨_, 32, 0x3C, rfl, rfl, rfl, by omega, rfl⟩, ⟨_, 32, 0, rfl, rfl, rfl, by omega, rfl⟩,
    ⟨Config.base + 0x40, by omega⟩, ⟨Config.base + 1, by omega⟩, ⟨16, by omega⟩⟩

/-- UnadmittedIsRefused. -/
theorem witness_unadmitted_record : (1 : BitVec 1) = 1 ∧ (0x3F : BitVec 6).extractLsb' 0 2 ≠ 0 := by decide

/-- PhaseCodeTable: both ends of the reserved codes. -/
theorem witness_reserved_codes : (0x14 : BitVec 5) ≤ 0x14 ∧ (0x14 : BitVec 5) ≤ 0x1F := by decide

/-- StepRunsTheDecodedInstruction, BusyHoldsTheHost, OnlyTheirWritersChangeFlagsAndKeys: no reset is due, with the engine
busy, with a transaction pending, and with nothing to do; each step goes on. -/
def busy : State := { State.reset with phase := Phase.kexp, pending := [.record 0x4000000003], resets := [1] }
def asking : State := { State.reset with pending := [.record 0x4000000003, .record 0x500000000F] }

theorem witness_not_due :
    ¬ ResetDue busy ∧ busy.phase ≠ Phase.idle ∧ ¬ ResetDue asking ∧ asking.phase = Phase.idle ∧
    asking.pending = .record 0x4000000003 :: [.record 0x500000000F] ∧ ¬ ResetDue State.reset ∧
    State.reset.phase = Phase.idle ∧ State.reset.pending = [] := by
  simp [ResetDue, busy, asking, State.reset]

/-- BusyHoldsTheHost and OnlyTheirWritersChangeFlagsAndKeys: steps that go on, one of which changes ERR, one KEY_VALID and
one KEYIN. -/
theorem witness_writers :
    (∃ t, step asking = .next t ∧ t.err ≠ asking.err) ∧ (∃ t, step busy = .next t ∧ t.keyValid ≠ busy.keyValid) ∧
    ∃ t, step { State.reset with pending := [.record 0x500000000F] } = .next t ∧ t.keyIn ≠ State.reset.keyIn :=
  ⟨⟨_, rfl, by decide⟩, ⟨_, rfl, by decide⟩, ⟨_, rfl, by decide +kernel⟩⟩

/-- FetchWordRunsNext. -/
theorem witness_phase_to_place : (0x1F : BitVec 5) ≠ Phase.idle := by decide

/-- ResetValuesAndAbandonment and BusyHoldsTheHost. -/
theorem witness_reset_due : ResetDue { State.reset with phase := Phase.mix, round := 9, resets := [0, 5] } := rfl

/-- CtrlWriteDecides, NopChangesNothing, RejectSetsErrOnly and EncryptAcceptedOrRefused: a word for each case, at the
edges of the fields. -/
theorem witness_ctrl_words :
    (0xFFFFFFFC : Word).toNat % 4 = 0 ∧ (0xFFFFFFFF : Word).toNat % 4 = 3 ∧
    ((0x5 : Word).toNat % 4 ≠ 0 ∧ (0x5 : Word).toNat / 4 % 4 ≠ 0) ∧
    ((0x80000002 : Word).toNat % 4 ≠ 0 ∧ (0x80000002 : Word).toNat / 16 ≠ 0 ∧ (0x80000002 : Word) ≠ 2 ∧
      (0x80000002 : Word) ≠ 1) ∧ State.reset.keyValid = false ∧
    (v1 0 0 0).keyValid = true := by decide +kernel

/-- SetKeyAcceptedThenDone: no reset is due after the command. -/
theorem witness_set_key : ¬ ResetDue { State.reset with err := 0, phase := 0x01, round := 0 } := by
  simp [ResetDue, State.reset]

/-- KeyWriteStoresFourBytes and DataWriteStoresFourBytes (a byte of another word), ReadAfterWrite (another word). -/
theorem witness_other_word : (15 : Fin 16).val / 4 ≠ (2 : Fin 4).val ∧ (3 : Fin 4) ≠ 0 := by decide

/-- KeyScheduleWords and KeyScheduleRecurrence: the ends of the ranges. -/
theorem witness_word_indices :
    (4 ≤ 43 ∧ 43 ≤ 43 ∧ 43 % 4 ≠ 0) ∧ (4 ≤ 5 ∧ 5 ≤ 43 ∧ 5 % 4 ≠ 0) ∧ (4 ≤ 4 ∧ 4 ≤ 43 ∧ 4 % 4 = 0) ∧
    (4 ≤ 40 ∧ 40 ≤ 43 ∧ 40 % 4 = 0) ∧ 9 < 10 ∧ 1 ≤ 9 := by decide

/-- DomainsUnderMixAndShift, MixMixesBoth, RemaskMcMovesBoth, ShiftRotatesBoth: V1's masks and states in each domain. -/
theorem witness_domains :
    mixMasks (v1 0 0 1).mask = mixCol (rowMasks (v1 0 0 1).mask) ∧
    (∃ v, InDomain (v1 0 0 1).mask .mrow v (v1 0 0 1).data) ∧ (∃ v, InDomain (v1 0 0 1).mask .mout v (v1 0 0 1).data) ∧
    (v1 0 0 10).round ≤ 10 ∧ (v1 0 0 0).round ≤ 10 :=
  ⟨by decide +kernel, ⟨maskedBy (rowMasks (v1 0 0 1).mask) zeroBlock, by unfold InDomain; decide +kernel⟩,
    ⟨maskedBy (uniformMask 0x29) zeroBlock, by unfold InDomain; decide +kernel⟩, by decide, by decide⟩

/-- TableBuilderLoop: an order that is not the first. -/
theorem witness_order : allBytes.reverse.Perm allBytes := List.reverse_perm allBytes

/-- RkMaskMasksTenBlocks, ArkDecoyAddsKeyToBoth, ArkAddsKeyToData: the last ROUND, a state in MMIX and its masked round
key. -/
def keyRound : State :=
  { v1 0 0 9 with
    data := maskedBy (mixMasks (slots 0x29C6735ECC292E75EB72)) v1Block
    rkm := Vector.replicate 11 (maskedBy (mixMasks (slots 0x29C6735ECC292E75EB72)) (maskedBy (uniformMask 0xCC) v1Key)) }

theorem witness_key_round :
    keyRound.round ≤ 9 ∧ InDomain keyRound.mask .mmix v1Block keyRound.data ∧
    keyAt keyRound.rkm keyRound.round.toNat =
      maskedBy (mixMasks keyRound.mask) (maskedBy (uniformMask keyRound.mask[4]) v1Key) := by
  refine ⟨by decide, rfl, ?_⟩
  decide +kernel

/-- SubUniformLooksUpBoth and SubDecoyDrawsRowMajor: a state in MIN and its table. -/
theorem witness_sub :
    (v1 0 0 1).sm = buildSM (v1 0 0 1).mask[4] (v1 0 0 1).mask[5] ∧
    InDomain (v1 0 0 1).mask .min (maskedBy (uniformMask 0xCC) zeroBlock) (v1 0 0 1).data := by
  unfold InDomain
  decide +kernel

/-- FinalArkUnmasks: DATA and RKM[10] in MOUT. -/
theorem witness_final_ark :
    InDomain (v1 0 0 10).mask .mout (maskedBy (uniformMask 0x29) zeroBlock) (v1 0 0 10).data ∧
    InDomain (v1 0 0 10).mask .mout (maskedBy (uniformMask 0x29) zeroBlock) (keyAt (v1 0 0 10).rkm 10) := by
  unfold InDomain
  decide +kernel

/-- UnlistedPairsFault: the first ROUNDs that are not listed, and the last code. -/
theorem witness_unlisted :
    (10 : BitVec 4) ≤ (v1 0 0 10).round ∧ (11 : BitVec 4) ≤ (v1 0 0 11).round ∧ (11 : BitVec 4) ≤ 15 := by decide

/-- EncryptFollowsTheSchedule, EncryptComputesAes128, CiphertextIndependentOfMasks, WhatEncryptLeaves: two starts of an
ENCRYPT that agree in key and block and differ in every store of masks and in the mask source. -/
def starting : State :=
  { State.reset with keyValid := true, data := v1Block, rk := keyExpand zeroBlock, phase := Phase.seed }

def startingElsewhere : State :=
  { v1 0x6BC1BEE22E409F96E93D7E117393172A 7 0 with
    rk := keyExpand zeroBlock, phase := Phase.seed, source := .external, gen := .external 5 }

theorem witness_encrypt_start :
    AtEncryptStart starting ∧ AtEncryptStart startingElsewhere ∧ Undisturbed starting ∧ Undisturbed startingElsewhere ∧
    starting.rk = startingElsewhere.rk ∧ starting.data = startingElsewhere.data ∧
    starting.rk = keyExpand (keyAt starting.rk 0) := by
  refine ⟨⟨rfl, rfl⟩, ⟨rfl, rfl⟩, rfl, rfl, rfl, rfl, ?_⟩
  decide +kernel

/-- DomainInvariantIsKept and NoLeakWithNonzeroMasks: a state of an ENCRYPT with nonzero masks. The round keys are zero,
so a masked block is its masks. -/
def encrypting (p : BitVec 5) (r : BitVec 4) (data : Block) : State :=
  { v1 0 0 r with
    phase := p, data := data
    rkm := tabulate fun q =>
      if q.val = 10 then maskedBy (uniformMask 0x29) zeroBlock
      else maskedBy (mixMasks (slots 0x29C6735ECC292E75EB72)) (maskedBy (uniformMask 0xCC) zeroBlock) }

theorem encrypting_rkm :
    (∀ q : Fin 10, keyAt (encrypting 0 0 zeroBlock).rkm q =
      maskedBy (mixMasks (slots 0x29C6735ECC292E75EB72)) (maskedBy (uniformMask (slots 0x29C6735ECC292E75EB72)[4])
        (keyAt State.reset.rk q))) ∧
    keyAt (encrypting 0 0 zeroBlock).rkm 10 =
      maskedBy (uniformMask (slots 0x29C6735ECC292E75EB72)[5]) (keyAt State.reset.rk 10) := by
  decide +kernel

theorem encrypting_inv (pt : Block) (p : BitVec 5) (r : BitVec 4) (data : Block) (hs : (p, r) ∈ encryptSchedule)
    (hd : InDomain (slots 0x29C6735ECC292E75EB72) (domainBefore p) (trueBefore State.reset.rk pt p r) data)
    (hp : Phase.rkMask.toNat < p.toNat) : EncryptInv pt (encrypting p r data) where
  scheduled := hs
  domain := hd
  masks := fun _ => by
    show mixMasks (slots 0x29C6735ECC292E75EB72) = mixCol (rowMasks (slots 0x29C6735ECC292E75EB72))
    decide +kernel
  table := fun _ => smAt_buildSM 0xCC 0x29
  lastKey := fun _ => encrypting_rkm.2
  copiedKeys := fun _ h => absurd h (Nat.not_le.mpr hp)
  maskedKeys := fun _ q hq => encrypting_rkm.1 ⟨q, hq⟩

/-- The first boundary of the range, about to perform ARK_DECOY in round 0. -/
theorem witness_domain_first :
    EncryptInv v1Block (encrypting Phase.arkDecoy 0
      (maskedBy (mixMasks (slots 0x29C6735ECC292E75EB72)) v1Block)) ∧
    ∀ k : Fin 10, (slots 0x29C6735ECC292E75EB72)[k] ≠ 0 :=
  ⟨encrypting_inv _ _ _ _ (by decide) rfl (by decide), by decide +kernel⟩

/-- The last, about to perform FINAL_ARK. -/
theorem witness_domain_last :
    EncryptInv v1Block (encrypting Phase.finalArk 10 (maskedBy (uniformMask (slots 0x29C6735ECC292E75EB72)[5])
      (trueBefore State.reset.rk v1Block Phase.finalArk 10))) :=
  encrypting_inv _ _ _ _ (by decide) rfl (by decide)

theorem witness_domain_not_due : ¬ ResetDue (encrypting Phase.finalArk 10 zeroBlock) := by
  simp [ResetDue, encrypting, v1, State.reset]

/-- EncryptIsAtomicToTheHost. -/
theorem witness_atomic :
    let s : State := { v1 1 0 0 with pending := [.record 0x4000000002, .record 0x2000000000] }
    s.phase = Phase.idle ∧ s.keyValid = true ∧ Undisturbed s ∧
      s.pending = .record 0x4000000002 :: [.record 0x2000000000] := ⟨rfl, rfl, rfl, rfl⟩

/-- MachineInvariantIsKept: a state in which the engine runs. -/
theorem witness_machine_inv : MachineInv { State.reset with phase := Phase.kexp, keyIn := v1Key } where
  scheduled := .inr (.inl ⟨rfl, rfl⟩)
  keyed := by decide
  expanded := nofun
  errCode := .inl rfl
  accepted := fun _ => rfl
  ghostClear := fun _ => rfl

/-- HostSeesNoMasks: two states that differ in the masks, the table, GHOST, GEN and the mask source. -/
theorem witness_host_agree :
    HostAgree { v1 5 0 0 with pending := [.record 0x4000000002, .record 0x2000000000] }
      { State.reset with
        keyValid := true, data := hex 5, ghost := v1Block, gen := .external 3, source := .external
        pending := [.record 0x4000000002, .record 0x2000000000] } :=
  ⟨rfl, rfl, rfl, rfl, rfl, rfl, rfl, rfl, rfl, rfl, rfl⟩

end Sys2Proof.Tests
end

/-! ### Host transactions and the agents of a step -/

namespace Sys2Proof.Machine

open Sys2Proof.Safety

/-- R55 and R75: an access is a transaction on one register, or it is not admitted. -/
theorem decodeAccess_cases (a : HostAccess) :
    (∃ write r v, decodeAccess a = regInstr write r v) ∨ decodeAccess a = .unadmitted a := by
  cases a with
  | record w =>
    simp only [decodeAccess, decodeRecord]
    split
    · split
      · exact .inl ⟨_, _, _, rfl⟩
      · exact .inr rfl
    · exact .inr rfl
  | bus write addr width v =>
    simp only [decodeAccess]
    split
    · exact .inl ⟨_, _, _, rfl⟩
    · exact .inr rfl

theorem exec_regInstr_write (r : Reg) (v : Word) (s : State) :
    exec (regInstr true r v) s = .next (writeReg r v s) := by
  cases r <;> rfl

theorem exec_regInstr_read (r : Reg) (v : Word) (s : State) :
    exec (regInstr false r v) s = .next (s.answer (readReg s r)) := by
  cases r <;> rfl

/-- Everything a host transaction that goes on can do: one register write or one register read. -/
theorem exec_decodeAccess_next {a : HostAccess} {s t : State} (h : exec (decodeAccess a) s = .next t) :
    (∃ r v, decodeAccess a = regInstr true r v ∧ t = writeReg r v s) ∨
    (∃ r v, decodeAccess a = regInstr false r v ∧ t = s.answer (readReg s r)) := by
  obtain ⟨write, r, v, hd⟩ | hd := decodeAccess_cases a <;> rw [hd] at h
  · cases write
    case true =>
      rw [exec_regInstr_write] at h
      cases h
      exact .inl ⟨r, v, hd, rfl⟩
    case false =>
      rw [exec_regInstr_read] at h
      cases h
      exact .inr ⟨r, v, hd, rfl⟩
  · cases h

/-- The three outcomes of a CTRL write (R185): nothing, the error, or the start of the engine. -/
theorem ctrlWrite_cases (v : Word) (s : State) :
    ctrlWrite v s = s ∨ ctrlWrite v s = raiseInvalidInput s ∨ ∃ p, ctrlWrite v s = acceptCommand p s := by
  unfold ctrlWrite
  split
  · exact .inl rfl
  split
  · exact .inr (.inl rfl)
  split
  · exact .inr (.inr ⟨_, rfl⟩)
  split
  · exact .inr (.inl rfl)
  · exact .inr (.inr ⟨_, rfl⟩)

/-- A CTRL write touches no key store and not KEY_VALID: the engine does that later, in KEXP (R24). -/
theorem ctrlWrite_keyStores (v : Word) (s : State) :
    (ctrlWrite v s).keyValid = s.keyValid ∧ (ctrlWrite v s).k = s.k ∧ (ctrlWrite v s).rk = s.rk ∧
      (ctrlWrite v s).keyIn = s.keyIn := by
  obtain h | h | ⟨p, h⟩ := ctrlWrite_cases v s <;> simp [h]

/-- No host write reaches KEY_VALID, K or RK (R24, R28, R29). -/
theorem writeReg_keyStores (r : Reg) (v : Word) (s : State) :
    (writeReg r v s).keyValid = s.keyValid ∧ (writeReg r v s).k = s.k ∧ (writeReg r v s).rk = s.rk := by
  cases r with
  | ctrl =>
    obtain ⟨hv, hk, hrk, -⟩ := ctrlWrite_keyStores v s
    exact ⟨hv, hk, hrk⟩
  | status | reservedLow | key | data | reservedHigh => exact ⟨rfl, rfl, rfl⟩

theorem eq_ctrl_of_writeReg_err_ne {r : Reg} {v : Word} {s : State} (h : (writeReg r v s).err ≠ s.err) :
    r = .ctrl := by
  cases r with
  | ctrl => rfl
  | status | reservedLow | key | data | reservedHigh => exact absurd rfl h

theorem eq_key_of_writeReg_keyIn_ne {r : Reg} {v : Word} {s : State} (h : (writeReg r v s).keyIn ≠ s.keyIn) :
    ∃ k, r = .key k := by
  cases r with
  | key k => exact ⟨k, rfl⟩
  | ctrl =>
    obtain ⟨-, -, -, hkeyIn⟩ := ctrlWrite_keyStores v s
    exact absurd hkeyIn h
  | status | reservedLow | data | reservedHigh => exact absurd rfl h

/-- R180: which agent made a step that goes on and is no reset. The engine ran the micro-operation of PHASE, or the
idle core performed the host's oldest transaction, or there was nothing to do; the reset line counts the step. -/
theorem step_next_cases {s t : State} (hr : ¬ ResetDue s) (h : step s = .next t) :
    (s.phase ≠ Phase.idle ∧ exec (decodePhase s.phase) (s.setResets (resetLine s.resets).2) = .next t) ∨
    (s.phase = Phase.idle ∧ ∃ a rest, s.pending = a :: rest ∧
      exec (decodeAccess a) ((s.setResets (resetLine s.resets).2).setPending rest) = .next t) ∨
    (s.phase = Phase.idle ∧ s.pending = [] ∧ t = s.setResets (resetLine s.resets).2) := by
  obtain ⟨hdue, -⟩ | ⟨-, hs⟩ := step_cases s
  · exact absurd hdue hr
  rw [hs, agentStep] at h
  by_cases hphase : s.phase = Phase.idle
  · cases hp : s.pending with
    | nil =>
      rw [fetch_waiting (by simpa using hphase) (by simpa using hp)] at h
      cases h
      exact .inr (.inr ⟨hphase, rfl, rfl⟩)
    | cons a rest =>
      rw [fetch_host (by simpa using hphase) (by simpa using hp)] at h
      exact .inr (.inl ⟨hphase, a, rest, rfl, h⟩)
  · rw [fetch_busy (by simpa using hphase)] at h
    exact .inl ⟨hphase, h⟩

/-- KEXP writes neither ERR nor KEYIN (R112). -/
theorem exec_kexp_err_keyIn {s t : State} (h : exec .kexp s = .next t) : t.err = s.err ∧ t.keyIn = s.keyIn := by
  cases h
  exact ⟨rfl, rfl⟩

/-- R42: no micro-operation writes ERR or KEYIN. -/
theorem exec_phase_err_keyIn {p : BitVec 5} {s t : State} (h : exec (decodePhase p) s = .next t) :
    t.err = s.err ∧ t.keyIn = s.keyIn := by
  by_cases hp : p = Phase.kexp
  · subst hp
    exact exec_kexp_err_keyIn h
  · have frame := exec_phase_frame hp h
    exact ⟨frame.err, frame.keyIn⟩

/-- R42: a micro-operation that writes KEY_VALID, K or RK is KEXP. -/
theorem eq_kexp_of_exec_phase_key_ne {p : BitVec 5} {s t : State} (h : exec (decodePhase p) s = .next t)
    (hk : t.keyValid ≠ s.keyValid ∨ t.k ≠ s.k ∨ t.rk ≠ s.rk) : p = Phase.kexp := by
  by_contra hp
  have frame := exec_phase_frame hp h
  simp [frame.keyValid, frame.k, frame.rk] at hk

/-- R24, R28, R29: no host transaction writes KEY_VALID, K or RK. -/
theorem exec_decodeAccess_keyStores {a : HostAccess} {s t : State} (h : exec (decodeAccess a) s = .next t) :
    t.keyValid = s.keyValid ∧ t.k = s.k ∧ t.rk = s.rk := by
  obtain ⟨r, v, -, rfl⟩ | ⟨r, v, -, rfl⟩ := exec_decodeAccess_next h
  · exact writeReg_keyStores r v s
  · exact ⟨rfl, rfl, rfl⟩

/-- R42: a host transaction that changes ERR is a CTRL write. -/
theorem eq_wrCtrl_of_exec_err_ne {a : HostAccess} {s t : State} (h : exec (decodeAccess a) s = .next t)
    (he : t.err ≠ s.err) : ∃ v, decodeAccess a = .wrCtrl v := by
  obtain ⟨r, v, hd, rfl⟩ | ⟨r, v, -, rfl⟩ := exec_decodeAccess_next h
  · cases eq_ctrl_of_writeReg_err_ne he
    exact ⟨v, hd⟩
  · exact absurd rfl he

/-- R26: a host transaction that changes KEYIN is a KEY write. -/
theorem eq_wrKey_of_exec_keyIn_ne {a : HostAccess} {s t : State} (h : exec (decodeAccess a) s = .next t)
    (hi : t.keyIn ≠ s.keyIn) : ∃ k v, decodeAccess a = .wrKey k v := by
  obtain ⟨r, v, hd, rfl⟩ | ⟨r, v, -, rfl⟩ := exec_decodeAccess_next h
  · obtain ⟨k, rfl⟩ := eq_key_of_writeReg_keyIn_ne hi
    exact ⟨k, v, hd⟩
  · exact absurd rfl hi

/-- Settles O23, by the agent of the step: the engine writes ERR and KEYIN in no phase and the key stores in KEXP
only; the host writes ERR through CTRL and KEYIN through KEY only, and the key stores not at all. -/
theorem onlyTheirWritersChangeFlagsAndKeys : Obligations.OnlyTheirWritersChangeFlagsAndKeys := by
  intro s t hr h
  obtain ⟨-, hx⟩ | ⟨hidle, a, rest, hp, hx⟩ | ⟨-, -, rfl⟩ := step_next_cases hr h
  · obtain ⟨herr, hkeyIn⟩ := exec_phase_err_keyIn hx
    exact ⟨absurd herr, fun hk => eq_kexp_of_exec_phase_key_ne hx hk, absurd hkeyIn⟩
  · have hhead : s.pending.head? = some a := by rw [hp, List.head?_cons]
    refine ⟨fun he => ?_, fun hk => ?_, fun hi => ?_⟩
    · obtain ⟨v, hd⟩ := eq_wrCtrl_of_exec_err_ne hx he
      exact ⟨hidle, a, v, hhead, hd⟩
    · obtain ⟨hvalid, hkey, htable⟩ := exec_decodeAccess_keyStores hx
      simp [hvalid, hkey, htable] at hk
    · obtain ⟨k, v, hd⟩ := eq_wrKey_of_exec_keyIn_ne hx hi
      exact ⟨hidle, a, k, v, hhead, hd⟩
  · simp

end Sys2Proof.Machine

/-! ### Admission of bus accesses (R55) -/

namespace Sys2Proof.Machine

/-- R55's three conditions on a bus access; an address below BASE has no offset in the window (R11). -/
theorem admitted_bus_iff (write : Bool) (addr width : Nat) (v : Word) :
    (HostAccess.bus write addr width v).admitted = true ↔
      width = 32 ∧ Config.base ≤ addr ∧ (addr - Config.base) % 4 = 0 ∧ addr - Config.base ≤ 0x3C := by
  simp [HostAccess.admitted, and_assoc]

/-- R51: the register a bus access reaches is the one at the access's offset. -/
theorem offsetOf_of_busReg {addr width : Nat} {r : Reg} (h : busReg addr width = some r) :
    offsetOf r = BitVec.ofNat 6 (addr - Config.base) := by
  unfold busReg at h
  split at h
  · exact offsetOf_of_regAt h
  · cases h

/-- R51 and R55: an admitted bus access is the transaction on the register at its offset. -/
theorem decodeAccess_bus_of_admitted {write : Bool} {addr width : Nat} {v : Word}
    (h : (HostAccess.bus write addr width v).admitted = true) :
    ∃ r, offsetOf r = BitVec.ofNat 6 (addr - Config.base) ∧
      decodeAccess (.bus write addr width v) = regInstr write r v := by
  cases hr : busReg addr width with
  | none =>
    rw [(busReg_eq_none write addr width v).mp hr] at h
    cases h
  | some r => exact ⟨r, offsetOf_of_busReg hr, by rw [decodeAccess, hr]⟩

/-- R55: a bus access that is not admitted is UNADMITTED. -/
theorem decodeAccess_bus_of_not_admitted {write : Bool} {addr width : Nat} {v : Word}
    (h : (HostAccess.bus write addr width v).admitted = false) :
    decodeAccess (.bus write addr width v) = .unadmitted (.bus write addr width v) := by
  rw [decodeAccess, (busReg_eq_none write addr width v).mpr h]

/-- R55: UNADMITTED is refused with the offset and the width of the access it carries. -/
theorem exec_unadmitted (a : HostAccess) (s : State) :
    exec (.unadmitted a) s = .refused (.unadmittedAccess (accessOffset a) (accessWidth a)) := rfl

/-- Settles O4: an access that meets R55's three conditions reaches the register at its offset, and one that fails any
of them is UNADMITTED. -/
theorem admissionRule : Obligations.AdmissionRule := by
  intro write addr width v s
  refine ⟨?_, fun hbad => ?_⟩
  · rintro off rfl hwidth halign hlast
    have hadm : (HostAccess.bus write (Config.base + off) width v).admitted = true := by
      rw [admitted_bus_iff, Nat.add_sub_cancel_left]
      exact ⟨hwidth, Nat.le_add_right _ _, halign, hlast⟩
    simpa using decodeAccess_bus_of_admitted hadm
  · have hadm : (HostAccess.bus write addr width v).admitted = false := by
      rw [← Bool.not_eq_true, admitted_bus_iff]
      omega
    rw [decodeAccess_bus_of_not_admitted hadm, exec_unadmitted]
    rfl

end Sys2Proof.Machine

/-! ### The phase codes (R78) -/

namespace Sys2Proof.Machine

/-- R78: performing a reserved code is the fault of that code. The case split is over the twelve reserved codes. -/
theorem exec_decodePhase_reserved (p : BitVec 5) (s : State) (h : 0x14 ≤ p) :
    exec (decodePhase p) s = .fault (.reservedPhase p s.round) := by
  obtain ⟨n, hlt⟩ := p
  have hreserved : 20 ≤ n := h
  interval_cases n <;> rfl

/-- Settles O7: the codes below 0x14 by evaluation of the table; a reserved row is the decode of its code, so both
clauses on reserved codes are the one lemma. -/
theorem phaseCodeTable : Obligations.PhaseCodeTable := by
  refine ⟨rfl, rfl, exec_decodePhase_reserved, fun s => ?_⟩
  have fault (p : BitVec 5) := exec_decodePhase_reserved p s
  exact ⟨fault 0x14 (by decide), fault 0x15 (by decide), fault 0x16 (by decide), fault 0x17 (by decide),
    fault 0x18 (by decide), fault 0x19 (by decide), fault 0x1A (by decide), fault 0x1B (by decide),
    fault 0x1C (by decide), fault 0x1D (by decide), fault 0x1E (by decide), fault 0x1F (by decide)⟩

end Sys2Proof.Machine

/-! ### The key scheduler (R111, R112) -/

namespace Sys2Proof.Machine

/-- R112: KEXP writes the three key stores, then ends the command. -/
theorem exec_kexp (s : State) :
    exec .kexp s = .next ((s.setKey s.keyIn (keyExpand s.keyIn)).setPhase Phase.idle 0) := rfl

/-- Settles O24: the two writes of KEXP, written out on the record. -/
theorem kexpStoresKeyAndSchedule : Obligations.KexpStoresKeyAndSchedule := by
  intro s
  rw [exec_kexp, State.setPhase, State.setKey]

theorem scheduleTemp_of_mod_ne_zero {i : Nat} (h : i % 4 ≠ 0) (t : Quad) : scheduleTemp i t = t :=
  if_neg h

/-- R111: the rotate moves byte `n + 1` to place `n`, and the round constant meets byte 0 alone. -/
theorem scheduleTemp_of_mod_eq_zero {i : Nat} (h : i % 4 = 0) (t : Quad) :
    scheduleTemp i t = #v[sbox t[1] ^^^ rcon (i / 4), sbox t[2], sbox t[3], sbox t[0]] := by
  simp [scheduleTemp, h, xorQuad, subWord, rotWord]

/-- R111's recurrence, byte by byte. -/
theorem getElem_keyWords_rec (key : Block) {i : Nat} (h4 : 4 ≤ i) (h43 : i ≤ 43) (n : Fin 4) :
    (wordOf (keyWords key) i)[n] =
      (wordOf (keyWords key) (i - 4))[n] ^^^ (scheduleTemp i (wordOf (keyWords key) (i - 1)))[n] := by
  rw [keyWords_rec key i h4 h43]
  exact getElem_xorQuad _ _ n.val n.isLt

/-- Settles O25: the words are those R111's loop makes, and the recurrence splits on whether 4 divides the index. -/
theorem keyScheduleWords : Obligations.KeyScheduleWords := by
  intro key
  refine ⟨wordOf (keyWords key), fun i n => ?_, fun i h4 h43 hi n => ?_, fun i h4 h43 hi => ?_,
    fun r c n => stateAt_keyExpand key r n c⟩
  · rw [keyWords_key]
    exact getElem_column key i n.val n.isLt
  · rw [getElem_keyWords_rec key h4 h43, scheduleTemp_of_mod_ne_zero hi]
  · have byte := getElem_keyWords_rec key h4 h43
    rw [scheduleTemp_of_mod_eq_zero hi] at byte
    exact ⟨byte 0, byte 1, byte 2, byte 3⟩

end Sys2Proof.Machine

/-! ### The mask source lcgRef (R122) -/

namespace Sys2Proof.Machine

/-- R122: the seed combines the words at the four word places of the block. -/
theorem seedGen_lcgRef (b : Block) :
    seedGen .lcgRef b = .lcg (wordAt b 0 ^^^ wordAt b 1 ^^^ wordAt b 2 ^^^ wordAt b 3) := rfl

/-- R122: the sum and the product of the recurrence wrap at the 32 bits of the state. -/
theorem toNat_lcgNext (s : Word) : (lcgNext s).toNat = (1103515245 * s.toNat + 12345) % 2 ^ 32 := by
  rw [lcgNext, BitVec.toNat_add, BitVec.toNat_mul]
  exact Nat.mod_add_mod _ _ _

/-- R122: the byte of a draw is bits 23:16 of the state it leaves. -/
theorem toNat_draw_lcg_fst (s : Word) : (draw (.lcg s)).1.toNat = (lcgNext s).toNat / 2 ^ 16 % 256 :=
  toNat_field (lcgNext s) 16 8

theorem draw_lcg_snd (s : Word) : (draw (.lcg s)).2 = .lcg (lcgNext s) := rfl

/-- Settles O31: the words are the block's little-endian words, and the state of a draw is `lcgNext`. -/
theorem lcgRefRecurrence : Obligations.LcgRefRecurrence :=
  ⟨fun b => ⟨wordAt b, toNat_wordAt b, seedGen_lcgRef b⟩,
    fun s => ⟨lcgNext s, toNat_lcgNext s, draw_lcg_snd s, toNat_draw_lcg_fst s⟩⟩

end Sys2Proof.Machine

/-! ### Masked states under the engine's operations (R19) -/

namespace Sys2Proof.Machine

open Sys2Proof.Safety

/-- R96: column mixing is linear over XOR. -/
theorem mixCol_xorQuad (a b : Quad) : mixCol (xorQuad a b) = xorQuad (mixCol a) (mixCol b) := by
  ext i hi : 1
  match i, hi with
  | 0, _ | 1, _ | 2, _ | 3, _ =>
    simp [mixCol, mul2_xor, mul3_xor]
    ac_rfl

theorem column_maskedBy (q : Quad) (v : Block) (j : Fin 4) : column (maskedBy q v) j = xorQuad (column v j) q := by
  ext i hi : 1
  simp

/-- A value is its own masked form in domain Z. -/
theorem inDomain_z (m : MaskVec) (v : Block) : InDomain m .z v v :=
  block_ext fun i j => by simp [rowMask]

/-- R133: remasking by the quadruples of two domains moves a state from the one to the other. -/
theorem inDomain_remaskState {m : MaskVec} {d : Domain} {v a : Block} (d' : Domain) (h : InDomain m d v a) :
    InDomain m d' v (remaskState a (rowMask m d) (rowMask m d')) := by
  obtain rfl := h
  exact block_ext fun i j => by simp [xor_change]

/-- R133 from domain Z, whose quadruple is zero. (`hmoved` fixes the old domain before the two sides are compared.) -/
theorem inDomain_remaskState_noMask (m : MaskVec) (d : Domain) (v : Block) :
    InDomain m d v (remaskState v noMask (rowMask m d)) := by
  have hmoved := inDomain_remaskState d (inDomain_z m v)
  exact hmoved

/-- R126: a lookup in the table of the current masks is SubBytes under the mask. -/
theorem inDomain_subMasked {m : MaskVec} {v a : Block} (h : InDomain m .min v a) :
    InDomain m .mout (subBytes v) (subMasked (buildSM m[4] m[5]) a) := by
  obtain rfl := h
  exact block_ext fun i j => by simp [rowMask]

/-- R99: a row rotation moves bytes within their row, so the masks stay where they are. -/
theorem inDomain_shiftRows {m : MaskVec} {d : Domain} {v a : Block} (h : InDomain m d v a) :
    InDomain m d (shiftRows v) (shiftRows a) := by
  obtain rfl := h
  exact block_ext fun i j => by simp

/-- R98: column mixing mixes the masks of MROW into those of MMIX, when those are derived as R124 says. -/
theorem inDomain_mixColumns {m : MaskVec} {v a : Block} (hm : mixMasks m = mixCol (rowMasks m))
    (h : InDomain m .mrow v a) : InDomain m .mmix (mixColumns v) (mixColumns a) := by
  obtain rfl := h
  refine block_ext fun i j => ?_
  rw [stateAt_mixColumns, column_maskedBy, mixCol_xorQuad, stateAt_maskedBy, stateAt_mixColumns]
  simp [rowMask, hm, -getElem_mixMasks]

/-- R146: a round key that carries the masks of MMIX and MIN takes a state in MMIX to MIN. -/
theorem inDomain_addKey {m : MaskVec} {v a key rkm : Block} (h : InDomain m .mmix v a)
    (hkey : rkm = maskedBy (mixMasks m) (maskedBy (uniformMask m[4]) key)) :
    InDomain m .min (xorBlock v key) (xorBlock a rkm) := by
  obtain rfl := h
  obtain rfl := hkey
  exact block_ext fun i j => by simp [rowMask, xor_addKey]

/-- The sum of two states in one domain is unmasked. -/
theorem xorBlock_of_inDomain {m : MaskVec} {d : Domain} {v w a b : Block} (ha : InDomain m d v a)
    (hb : InDomain m d w b) : xorBlock a b = xorBlock v w := by
  obtain rfl := ha
  obtain rfl := hb
  refine block_ext fun i j => ?_
  rw [stateAt_xorBlock, stateAt_maskedBy, stateAt_maskedBy, stateAt_xorBlock]
  rw [BitVec.xor_comm (stateAt w i j), xor_change]

/-! ### The pure operations, byte by byte and block by block -/

theorem getElem_shiftRows (s : Block) (b : Nat) (h : b < 16) :
    (shiftRows s)[b] = s[4 * ((b / 4 + b % 4) % 4) + b % 4] := by
  simp [shiftRows, getElem_ofRowsCols, stateAt, Fin.val_add]

@[simp] theorem getElem_decoyBlock (s : Block) (b : Nat) (h : b < 16) : (decoyBlock s)[b] = s[b] ^^^ 0xA5 := by
  simp [decoyBlock, Config.decoy]

theorem column_mixColumns (a : Block) (j : Fin 4) : column (mixColumns a) j = mixCol (column a j) := by
  ext i hi : 1
  simp

/-- The remasking of GHOST_INIT and GHOST_UNMASK (R145, R157). -/
theorem stateAt_remaskState_mixMasks (a : Block) (m m' : MaskVec) (i j : Fin 4) :
    stateAt (remaskState a (mixMasks m) (mixMasks m')) i j = stateAt a i j ^^^ m[6 + i.val] ^^^ m'[6 + i.val] := by
  simp [BitVec.xor_assoc]

theorem keyAt_set_same (t : KeyTable) {r : Nat} (h : r < 11) (b : Block) : keyAt (t.set r b) r = b := by
  simp [keyAt]

theorem keyAt_set_other (t : KeyTable) {r n : Nat} (h : r < 11) (hn : n ≠ r) (b : Block) :
    keyAt (t.set r b) n = keyAt t n := by
  simp [keyAt, Vector.getElem?_set_ne h hn.symm]

theorem keyAt_ten (t : KeyTable) : keyAt t 10 = t[10] := by
  simp [keyAt]

/-! ### The field product by 2 and 3 (R90, R92, R93) -/

theorem gmulBits_xtime (n : Nat) (a b : Byte) : gmulBits n (xtime a) b = xtime (gmulBits n a b) := by
  induction n generalizing a b with
  | zero => simp [gmulBits, xtime]
  | succ n ih =>
    rw [gmulBits, gmulBits, ih, xtime_xor]
    congr 1
    split <;> rfl

theorem gmulBits_xor (n : Nat) (a a' b : Byte) :
    gmulBits n (a ^^^ a') b = gmulBits n a b ^^^ gmulBits n a' b := by
  induction n generalizing a a' b with
  | zero => simp [gmulBits]
  | succ n ih =>
    simp only [gmulBits, xtime_xor, ih]
    split
    · ac_rfl
    · simp

theorem gmul_one (b : Byte) : gmul 1 b = b := by
  revert b
  decide

theorem gmul_two (b : Byte) : gmul 2 b = mul2 b :=
  calc gmul 2 b = xtime (gmul 1 b) := gmulBits_xtime 8 1 b
    _ = mul2 b := by rw [gmul_one, mul2]

theorem gmul_three (b : Byte) : gmul 3 b = mul3 b :=
  calc gmul 3 b = gmul 2 b ^^^ gmul 1 b := gmulBits_xor 8 2 1 b
    _ = mul3 b := by rw [gmul_two, gmul_one, mul2, mul3]

/-- R96: column mixing byte by byte, with the matrix entries 2 and 3 as field products. -/
theorem stateAt_mixColumns_gmul (a : Block) (j : Fin 4) :
    stateAt (mixColumns a) 0 j =
      gmul 2 (stateAt a 0 j) ^^^ gmul 3 (stateAt a 1 j) ^^^ stateAt a 2 j ^^^ stateAt a 3 j ∧
    stateAt (mixColumns a) 1 j =
      stateAt a 0 j ^^^ gmul 2 (stateAt a 1 j) ^^^ gmul 3 (stateAt a 2 j) ^^^ stateAt a 3 j ∧
    stateAt (mixColumns a) 2 j =
      stateAt a 0 j ^^^ stateAt a 1 j ^^^ gmul 2 (stateAt a 2 j) ^^^ gmul 3 (stateAt a 3 j) ∧
    stateAt (mixColumns a) 3 j =
      gmul 3 (stateAt a 0 j) ^^^ stateAt a 1 j ^^^ stateAt a 2 j ^^^ gmul 2 (stateAt a 3 j) := by
  simp only [stateAt_mixColumns, gmul_two, gmul_three]
  exact ⟨rfl, rfl, rfl, rfl⟩

/-! ### The mask vectors GENMASK leaves (R123-R125) -/

/-- The mask vector with slots 0..3, 4 and 5 given and slots 6..9 derived from them (R124). -/
def derivedVec (rows : Quad) (slot4 slot5 : Byte) : MaskVec :=
  #v[rows[0], rows[1], rows[2], rows[3], slot4, slot5,
     (mixCol rows)[0], (mixCol rows)[1], (mixCol rows)[2], (mixCol rows)[3]]

theorem rowMasks_derivedVec (q : Quad) (a b : Byte) : rowMasks (derivedVec q a b) = q := by
  ext i hi : 1
  interval_cases i <;> rfl

theorem mixMasks_derivedVec (q : Quad) (a b : Byte) :
    mixMasks (derivedVec q a b) = mixCol (rowMasks (derivedVec q a b)) := by
  rw [rowMasks_derivedVec]
  rfl

/-- All six slots that a draw can write are overwritten, so nothing of the old vector stays. -/
theorem deriveSlots_set (v : MaskVec) (a4 a0 a1 a2 a3 a5 : Byte) :
    deriveSlots ((((((v.set 4 a4).set 0 a0).set 1 a1).set 2 a2).set 3 a3).set 5 a5) =
      derivedVec #v[a0, a1, a2, a3] a4 a5 := by
  simp [deriveSlots, derivedVec, rowMasks]

theorem genMasks_eq (m d1 d2 : MaskVec) (g : GenState) :
    genMasks m d1 d2 g =
      (derivedVec #v[drawnByte g 4, drawnByte g 7, drawnByte g 10, drawnByte g 13] (drawnByte g 1) (drawnByte g 18),
       derivedVec #v[drawnByte g 5, drawnByte g 8, drawnByte g 11, drawnByte g 14] (drawnByte g 2) (drawnByte g 16),
       derivedVec #v[drawnByte g 6, drawnByte g 9, drawnByte g 12, drawnByte g 15] (drawnByte g 3) (drawnByte g 17),
       genAfter 18 g) := by
  simp only [genMasks, drawOrder_foldl, deriveSlots_set]

end Sys2Proof.Machine

/-! ### What each micro-operation answers (R141-R160): its effect and the pair that `Next` gives -/

namespace Sys2Proof.Machine

open Sys2Proof.Safety

theorem nextPhase_arkDecoy {r : BitVec 4} (h : r ≤ 9) :
    nextPhase Phase.arkDecoy r = some (subKind (r + 1), r + 1) := by
  simpa [nextPhase] using h

theorem nextPhase_ark {r : BitVec 4} (h : r ≤ 9) : nextPhase Phase.ark r = some (subKind (r + 1), r + 1) := by
  simpa [nextPhase] using h

theorem nextPhase_shift {r : BitVec 4} (h : r ≤ 10) :
    nextPhase Phase.shift r = some (if r = 10 then Phase.ghostUnmask else Phase.remaskMc, r) := by
  by_cases hlast : r = 10
  · subst hlast
    rfl
  · have hr : r ≤ 9 := by bv_omega
    have hrow : nextPhase Phase.shift r = if r ≤ 9 then some (Phase.remaskMc, r)
        else if r = 10 then some (Phase.ghostUnmask, 10) else none := rfl
    rw [hrow, if_pos hr, if_neg hlast]

section

variable (s : State)

theorem exec_seed : exec .seed s = .next ((s.setGen (seedGen s.source s.data)).setPhase Phase.genmask 0) := rfl

theorem exec_genmask : exec .genmask s = .next ((genmaskEffect s).setPhase Phase.buildSbox 0) := rfl

theorem exec_buildSbox :
    exec .buildSbox s = .next ((s.setSm (buildSM s.mask[4] s.mask[5])).setPhase Phase.rkFinal 0) := rfl

theorem exec_rkFinal :
    exec .rkFinal s = .next ((s.setRkm (s.rk.set 10 (remaskState s.rk[10] noMask (uniformMask s.mask[5])))).setPhase
      Phase.ghostInit 0) := rfl

theorem exec_ghostInit :
    exec .ghostInit s = .next ((s.setGhost (remaskState s.data (mixMasks s.dm1) (mixMasks s.dm2))).setPhase
      Phase.rkMask 0) := rfl

theorem exec_r0Remask :
    exec .r0Remask s = .next ((s.setData (remaskState s.data noMask (mixMasks s.mask))).setPhase
      Phase.arkDecoy 0) := rfl

theorem exec_subUniform :
    exec .subUniform s = .next (((s.setData (subMasked s.sm s.data)).setGhost (subMasked s.sm s.ghost)).setPhase
      Phase.shift s.round) := rfl

theorem exec_subDecoy : exec .subDecoy s = .next ((subDecoyEffect s).setPhase Phase.shift s.round) := rfl

theorem exec_remaskMc :
    exec .remaskMc s = .next (((s.setData (remaskState s.data (uniformMask s.mask[5]) (rowMasks s.mask))).setGhost
      (remaskState s.ghost (uniformMask s.dm2[5]) (rowMasks s.dm1))).setPhase Phase.mix s.round) := rfl

theorem exec_mix :
    exec .mix s = .next (((s.setData (mixColumns s.data)).setGhost (mixColumns s.ghost)).setPhase
      (arkKind s.round) s.round) := rfl

theorem exec_ghostUnmask :
    exec .ghostUnmask s = .next ((s.setGhost (remaskState s.ghost (mixMasks s.dm1) (mixMasks s.dm2))).setPhase
      Phase.ghostMix 10) := rfl

theorem exec_ghostMix :
    exec .ghostMix s = .next ((s.setGhost (mixColumns s.ghost)).setPhase Phase.finalArk 10) := rfl

theorem exec_finalArk :
    exec .finalArk s = .next ((s.setData (xorBlock s.data (keyAt s.rkm 10))).setPhase Phase.cleanup 10) := by
  rw [keyAt_ten]
  rfl

theorem exec_cleanup : exec .cleanup s = .next ((s.setGhost zeroBlock).setPhase Phase.idle 0) := rfl

variable {s}

theorem exec_shift (h : s.round ≤ 10) :
    exec .shift s = .next (((s.setData (shiftRows s.data)).setGhost (shiftRows s.ghost)).setPhase
      (if s.round = 10 then Phase.ghostUnmask else Phase.remaskMc) s.round) := by
  rw [exec, execShift, microOp_next _ (nextPhase_shift h)]

theorem exec_arkDecoy (h : s.round ≤ 9) :
    exec .arkDecoy s = .next (((s.setData (xorBlock s.data (keyAt s.rkm s.round.toNat))).setGhost
      (decoyBlock (xorBlock s.ghost (keyAt s.rkm s.round.toNat)))).setPhase
      (subKind (s.round + 1)) (s.round + 1)) := by
  have hkey : s.round ≤ 10 := by bv_omega
  rw [exec, execArkDecoy, roundKeyMasked_of_le hkey]
  exact microOp_next _ (nextPhase_arkDecoy h)

theorem exec_ark (h : s.round ≤ 9) :
    exec .ark s = .next ((s.setData (xorBlock s.data (keyAt s.rkm s.round.toNat))).setPhase
      (subKind (s.round + 1)) (s.round + 1)) := by
  have hkey : s.round ≤ 10 := by bv_omega
  rw [exec, execArk, roundKeyMasked_of_le hkey]
  exact microOp_next _ (nextPhase_ark h)

end

/-- SUB_DECOY's stores: each byte of DATA looked up, GHOST overwritten in row-major order, 16 draws (R150). -/
theorem subDecoyEffect_stores (s : State) : ∃ ghost,
    subDecoyEffect s = ((s.setData (subMasked s.sm s.data)).setGhost ghost).setGen (genAfter 16 s.gen) ∧
    ∀ i j : Fin 4, stateAt ghost i j = drawnByte s.gen (4 * i.val + j.val + 1) := by
  obtain ⟨data, ghost, g, hloop, he⟩ := subDecoyEffect_eq s
  obtain ⟨hdata, -, hghost, hgen⟩ := subDecoy_loop s.sm rowMajor rowMajor_nodup s.data s.ghost s.gen
  rw [hloop] at hdata hghost hgen
  have hsub : data = subMasked s.sm s.data := by
    ext b hb : 1
    simpa [mem_rowMajor] using hdata ⟨b, hb⟩
  refine ⟨ghost, by rw [he, hsub, ← rowMajor_length, ← hgen], fun i j => ?_⟩
  have hn : 4 * i.val + j.val < rowMajor.length := by rw [rowMajor_length]; omega
  have hbyte := hghost _ hn
  simp only [getElem_rowMajor] at hbyte
  exact hbyte

/-- GENMASK's stores: the 18 draws at their slots, with slots 6..9 derived (R123, R124). -/
theorem genmaskEffect_stores (s : State) :
    genmaskEffect s = (s.setMasks
      (derivedVec #v[drawnByte s.gen 4, drawnByte s.gen 7, drawnByte s.gen 10, drawnByte s.gen 13]
        (drawnByte s.gen 1) (drawnByte s.gen 18))
      (derivedVec #v[drawnByte s.gen 5, drawnByte s.gen 8, drawnByte s.gen 11, drawnByte s.gen 14]
        (drawnByte s.gen 2) (drawnByte s.gen 16))
      (derivedVec #v[drawnByte s.gen 6, drawnByte s.gen 9, drawnByte s.gen 12, drawnByte s.gen 15]
        (drawnByte s.gen 3) (drawnByte s.gen 17))).setGen (genAfter 18 s.gen) := by
  rw [genmaskEffect, genMasks_eq]

end Sys2Proof.Machine

/-! ### Micro-operations of the setup (R141-R145) -/

namespace Sys2Proof.Machine

open Sys2Proof.Safety

/-- Settles O32, by the answer of SEED. -/
theorem seedWritesGen : Obligations.SeedWritesGen := exec_seed

/-- Settles O33: GENMASK leaves three derived vectors whose slots are the draws of the order. -/
theorem genmaskDrawsInOrder : Obligations.GenmaskDrawsInOrder := by
  intro s
  refine ⟨_, exec_genmask s, ?_⟩
  rw [genmaskEffect_stores]
  exact ⟨rfl, ⟨rfl, rfl, rfl⟩, ⟨rfl, rfl, rfl⟩, ⟨rfl, rfl, rfl⟩, ⟨rfl, rfl, rfl⟩, ⟨rfl, rfl, rfl⟩, ⟨rfl, rfl, rfl⟩,
    mixMasks_derivedVec _ _ _, mixMasks_derivedVec _ _ _, mixMasks_derivedVec _ _ _⟩

/-- Settles O34, by R126 entry by entry; a masked index loses its mask. -/
theorem buildSboxFillsTheTable : Obligations.BuildSboxFillsTheTable := by
  intro s
  have entry := smAt_buildSM s.mask[4] s.mask[5]
  refine ⟨_, exec_buildSbox s, rfl, entry, fun v => (entry _).trans ?_⟩
  rw [BitVec.xor_assoc, BitVec.xor_self, BitVec.xor_zero]

/-- Settles O35: the copy differs from RK in block 10, which goes from Z to MOUT. -/
theorem rkFinalCopiesAndMasksLast : Obligations.RkFinalCopiesAndMasksLast := by
  intro s
  refine ⟨_, exec_rkFinal s, rfl, fun r hr => keyAt_set_other _ (by decide) hr.ne _, ?_⟩
  rw [State.setPhase_rkm, State.setRkm_rkm, keyAt_set_same, keyAt_ten]
  exact inDomain_remaskState_noMask s.mask .mout s.rk[10]

/-- Settles O36, by R130 byte by byte. -/
theorem ghostInitMasksTheBlock : Obligations.GhostInitMasksTheBlock := by
  intro s
  exact ⟨_, exec_ghostInit s, rfl, stateAt_remaskState_mixMasks s.data s.dm1 s.dm2⟩

/-! ### Micro-operations of the rounds (R147-R155) -/

/-- Settles O38: DATA is its own value in Z, and goes from there to MMIX. -/
theorem roundZeroRemask : Obligations.RoundZeroRemask := by
  intro s
  exact ⟨_, exec_r0Remask s, rfl, fun i j => by simp, inDomain_remaskState_noMask s.mask .mmix s.data⟩

/-- Settles O39: both states take the round key, and on DATA it carries the change from MMIX to MIN. -/
theorem arkDecoyAddsKeyToBoth : Obligations.ArkDecoyAddsKeyToBoth := by
  intro s hr
  refine ⟨_, exec_arkDecoy hr, rfl, fun b => ⟨getElem_xorBlock _ _ b b.isLt, ?_⟩, fun v key => inDomain_addKey⟩
  exact (getElem_decoyBlock _ b b.isLt).trans (congrArg (· ^^^ 0xA5) (getElem_xorBlock _ _ b b.isLt))

/-- Settles O40: DATA takes the round key, which carries the change from MMIX to MIN. -/
theorem arkAddsKeyToData : Obligations.ArkAddsKeyToData := by
  intro s hr
  exact ⟨_, exec_ark hr, rfl, fun b => getElem_xorBlock _ _ b b.isLt, fun v key => inDomain_addKey⟩

/-- Settles O41: the lookups byte by byte, and SubBytes under the mask when the table is that of R126. -/
theorem subUniformLooksUpBoth : Obligations.SubUniformLooksUpBoth := by
  intro s
  refine ⟨_, exec_subUniform s, rfl, fun b => by simp, fun v hsm hv => ?_⟩
  simpa [hsm] using inDomain_subMasked hv

/-- Settles O42, by what the loop of R150 leaves in its three stores. -/
theorem subDecoyDrawsRowMajor : Obligations.SubDecoyDrawsRowMajor := by
  intro s
  obtain ⟨ghost, he, hghost⟩ := subDecoyEffect_stores s
  refine ⟨_, exec_subDecoy s, ?_⟩
  rw [he]
  refine ⟨rfl, fun b => by simp, hghost, fun v hsm hv => ?_⟩
  simpa [hsm] using inDomain_subMasked hv

/-- Settles O43: the rotation byte by byte, within rows whose masks are all one. -/
theorem shiftRotatesBoth : Obligations.ShiftRotatesBoth := by
  intro s hr
  exact ⟨_, exec_shift hr, rfl, fun b => ⟨getElem_shiftRows s.data b b.isLt, getElem_shiftRows s.ghost b b.isLt⟩,
    fun v => inDomain_shiftRows⟩

/-- Settles O44: the two remaskings byte by byte, the first of which is from MOUT to MROW. -/
theorem remaskMcMovesBoth : Obligations.RemaskMcMovesBoth := by
  intro s
  exact ⟨_, exec_remaskMc s, rfl, fun i j => by simp [BitVec.xor_assoc], fun v => inDomain_remaskState .mrow⟩

/-- Settles O45: R96's matrix on both states, and the linearity of column mixing on DATA. -/
theorem mixMixesBoth : Obligations.MixMixesBoth := by
  intro s
  refine ⟨_, exec_mix s, rfl, ?_, fun v => inDomain_mixColumns⟩
  rintro a b (⟨rfl, rfl⟩ | ⟨rfl, rfl⟩)
  · exact stateAt_mixColumns_gmul s.data
  · exact stateAt_mixColumns_gmul s.ghost

/-! ### Micro-operations of the termination (R157-R160) -/

/-- Settles O46: R130 byte by byte, and column mixing column by column. -/
theorem ghostTermination : Obligations.GhostTermination := by
  intro s
  exact ⟨⟨_, exec_ghostUnmask s, rfl, stateAt_remaskState_mixMasks s.ghost s.dm1 s.dm2⟩,
    ⟨_, exec_ghostMix s, rfl, column_mixColumns s.ghost⟩⟩

/-- Settles O47: DATA and RKM[10] both lie in MOUT, so their sum is unmasked. -/
theorem finalArkUnmasks : Obligations.FinalArkUnmasks := by
  intro s
  exact ⟨_, exec_finalArk s, rfl, fun b => getElem_xorBlock _ _ b b.isLt, fun v key => xorBlock_of_inDomain⟩

/-- Settles O48, by the answer of CLEANUP. -/
theorem cleanupClearsGhost : Obligations.CleanupClearsGhost := by
  intro s
  exact ⟨_, exec_cleanup s, rfl, fun b => getElem_zeroBlock b b.isLt⟩

end Sys2Proof.Machine

/-! ### The command word on numbers, and the four commands (R70, R74, R185-R189) -/

namespace Sys2Proof

theorem ctrlCmd_eq_iff (v : Word) (c : BitVec 2) : ctrlCmd v = c ↔ v.toNat % 4 = c.toNat := by
  rw [← BitVec.toNat_inj, ctrlCmd, toNat_field, Nat.pow_zero, Nat.div_one]
  exact Iff.rfl

theorem ctrlKeylen_eq_iff (v : Word) (c : BitVec 2) : ctrlKeylen v = c ↔ v.toNat / 4 % 4 = c.toNat := by
  rw [← BitVec.toNat_inj, ctrlKeylen, toNat_field]
  exact Iff.rfl

theorem ctrlRsvd_eq_iff (v : Word) (c : BitVec 28) : ctrlRsvd v = c ↔ v.toNat / 16 = c.toNat := by
  have hlt : v.toNat / 2 ^ 4 < 2 ^ 28 := Nat.div_lt_of_lt_mul v.isLt
  rw [← BitVec.toNat_inj, ctrlRsvd, toNat_field, Nat.mod_eq_of_lt hlt]
  exact Iff.rfl

/-- R74's first row: CMD alone makes a word a NOP. -/
theorem decodeCtrl_of_ctrlCmd_eq_zero {v : Word} (h : ctrlCmd v = 0) : decodeCtrl v = .nop (v.extractLsb' 2 30) :=
  if_pos h

/-- R74's last row takes what the three before it leave. -/
theorem decodeCtrl_reject {v : Word} (hcmd : ctrlCmd v ≠ 0) (h1 : v ≠ 1) (h2 : v ≠ 2) :
    decodeCtrl v = .reject v := by
  rw [decodeCtrl, if_neg hcmd, if_neg h1, if_neg h2]

namespace Machine

open Sys2Proof.Safety

theorem exec_nop (hi : BitVec 30) (s : State) : exec (.nop hi) s = .next s := rfl

theorem exec_setKey (s : State) : exec .setKey s = .next (acceptCommand Phase.kexp s) := rfl

theorem exec_reject (v : Word) (s : State) : exec (.reject v) s = .next (raiseInvalidInput s) := rfl

theorem exec_wrCtrl (v : Word) (s : State) : exec (.wrCtrl v) s = .next (ctrlWrite v s) :=
  exec_regInstr_write .ctrl v s

/-- R185, the first test. -/
theorem ctrlWrite_nop {v : Word} (h : ctrlCmd v = 0) (s : State) : ctrlWrite v s = s := if_pos h

/-- R185, the second test. -/
theorem ctrlWrite_invalid {v : Word} (h0 : ctrlCmd v ≠ 0) (h : ctrlCmd v = 3 ∨ ctrlKeylen v ≠ 0 ∨ ctrlRsvd v ≠ 0)
    (s : State) : ctrlWrite v s = raiseInvalidInput s := by
  rw [ctrlWrite, if_neg h0, if_pos h]

theorem ctrlWrite_one (s : State) : ctrlWrite 1 s = acceptCommand Phase.kexp s := rfl

/-- R185, the last test: ENCRYPT needs a key. -/
theorem ctrlWrite_two (s : State) :
    ctrlWrite 2 s = if s.keyValid = false then raiseInvalidInput s else acceptCommand Phase.seed s := rfl

/-- Settles O12, test by test in the order of R185; the fields are read as digits of the word's number. -/
theorem ctrlWriteDecides : Obligations.CtrlWriteDecides := by
  intro v s
  rw [exec_wrCtrl]
  refine ⟨fun hnop => ?_, fun hbad => ?_, ?_, ?_, ?_⟩
  · rw [ctrlWrite_nop ((ctrlCmd_eq_iff v 0).mpr hnop)]
  · have hcmd : ctrlCmd v ≠ 0 := by
      rw [Ne, ctrlCmd_eq_iff]
      change v.toNat % 4 ≠ 0
      omega
    have hfields : ctrlCmd v = 3 ∨ ctrlKeylen v ≠ 0 ∨ ctrlRsvd v ≠ 0 := by
      rw [Ne, Ne, ctrlCmd_eq_iff, ctrlKeylen_eq_iff, ctrlRsvd_eq_iff]
      exact hbad.imp_right And.right
    rw [ctrlWrite_invalid hcmd hfields, State.raiseInvalidInput_eq]
  · rintro rfl
    rw [ctrlWrite_one, State.acceptCommand_eq]
  · rintro rfl hkey
    rw [ctrlWrite_two, if_pos hkey, State.raiseInvalidInput_eq]
  · rintro rfl hkey
    rw [ctrlWrite_two, if_neg (by simp [hkey]), State.acceptCommand_eq]

/-- Settles O14, by the answer of NOP and R74's first row. -/
theorem nopChangesNothing : Obligations.NopChangesNothing :=
  ⟨exec_nop, fun v h => decodeCtrl_of_ctrlCmd_eq_zero ((ctrlCmd_eq_iff v 0).mpr h)⟩

/-- R180: a busy core with no reset due performs the micro-operation of PHASE. -/
theorem step_busy {s : State} (hr : ¬ ResetDue s) (hp : s.phase ≠ Phase.idle) :
    step s = exec (decodePhase s.phase) (s.setResets (resetLine s.resets).2) := by
  obtain ⟨hdue, -⟩ | ⟨-, hs⟩ := step_cases s
  · exact absurd hdue hr
  · rw [hs, agentStep, fetch_busy (by simpa using hp), State.setResets_phase]

/-- Settles O15: SET_KEY leaves PHASE at KEXP, so the next step is KEXP's. -/
theorem setKeyAcceptedThenDone : Obligations.SetKeyAcceptedThenDone := by
  intro s
  refine ⟨_, exec_setKey s, State.acceptCommand_eq s Phase.kexp, fun hr => ?_⟩
  have hbusy : (acceptCommand Phase.kexp s).phase ≠ Phase.idle := (by decide : Phase.kexp ≠ Phase.idle)
  rw [step_busy hr hbusy]
  exact ⟨_, exec_kexp _, rfl, rfl, rfl, rfl, rfl, rfl, rfl⟩

/-- Settles O17, by R74's last row and the answer of REJECT. -/
theorem rejectSetsErrOnly : Obligations.RejectSetsErrOnly := by
  refine ⟨fun v hcmd => decodeCtrl_reject ?_, fun v s => ?_⟩
  · rwa [Ne, ctrlCmd_eq_iff]
  · rw [exec_reject, State.raiseInvalidInput_eq]

end Machine

end Sys2Proof

/-! ### Register accesses by record (R75, R181-R184) -/

namespace Sys2Proof

/-- R75 with R51: a record with bit 39 clear and a register's offset is the access to that register, whatever VAL. -/
theorem decodeRecord_offsetOf (w : BitVec 1) (r : Reg) (v : Word) :
    decodeRecord (record 0 w (offsetOf r) v) = regInstr (w == 1) r v := by
  rw [decodeRecord, record_bit39, record_off, record_write, record_val, if_pos rfl, regAt_offsetOf]

/-- R51: the offset of register `k` of a group that starts at `base`. -/
theorem ofNat_add_four_mul (base k : Nat) :
    BitVec.ofNat 6 (base + 4 * k) = BitVec.ofNat 6 base + 4 * BitVec.ofNat 6 k := by
  rw [BitVec.ofNat_add, BitVec.ofNat_mul]
  rfl

namespace Machine

/-- R52: byte `n` of the word that a write stores. -/
theorem toNat_getElem_setWordAt_same (x : Block) (k : Fin 4) (v : Word) (n : Fin 4) :
    (setWordAt x k v)[4 * k.val + n.val].toNat = v.toNat / 2 ^ (8 * n.val) % 256 := by
  have hword : (4 * k.val + n.val) / 4 = k.val := by omega
  have hbyte : (4 * k.val + n.val) % 4 = n.val := by omega
  rw [getElem_setWordAt, if_pos hword, hbyte, toNat_byteOf]

/-- R52: a write to one word leaves the bytes of the others. -/
theorem getElem_setWordAt_other (x : Block) (k : Fin 4) (v : Word) (b : Fin 16) (h : b.val / 4 ≠ k.val) :
    (setWordAt x k v)[b] = x[b] :=
  (getElem_setWordAt x k v b b.isLt).trans (if_neg h)

/-- Settles O18: the record is the write of KEYk, which replaces word `k` of KEYIN. -/
theorem keyWriteStoresFourBytes : Obligations.KeyWriteStoresFourBytes := by
  intro k v s
  refine ⟨?_, _, exec_regInstr_write (.key k) v s, rfl, toNat_getElem_setWordAt_same s.keyIn k v,
    getElem_setWordAt_other s.keyIn k v⟩
  rw [ofNat_add_four_mul]
  exact decodeRecord_offsetOf 1 (.key k) v

/-- Settles O19: the record is the write of DATAk, which replaces word `k` of DATA. -/
theorem dataWriteStoresFourBytes : Obligations.DataWriteStoresFourBytes := by
  intro k v s
  refine ⟨?_, _, exec_regInstr_write (.data k) v s, rfl, toNat_getElem_setWordAt_same s.data k v,
    getElem_setWordAt_other s.data k v⟩
  rw [ofNat_add_four_mul]
  exact decodeRecord_offsetOf 1 (.data k) v

/-- R23: the number of STATUS. -/
theorem toNat_statusWord (s : State) : (statusWord s).toNat = 2 * s.err.toNat + s.keyValid.toNat := by
  have herr := s.err.isLt
  have hkey := s.keyValid.toNat_lt
  rw [statusWord, BitVec.toNat_setWidth, BitVec.toNat_append, BitVec.toNat_ofBool, shiftLeft_or_eq _ hkey]
  omega

/-- R23: KEY_VALID is bit 0 of STATUS. -/
theorem getLsbD_statusWord (s : State) : (statusWord s).getLsbD 0 = s.keyValid := by
  rw [statusWord, BitVec.zeroExtend_eq_setWidth, BitVec.getLsbD_setWidth, BitVec.getLsbD_append]
  simp

/-- R23: ERR is bits 2:1 of STATUS. -/
theorem err_statusWord (s : State) : (statusWord s).extractLsb' 1 2 = s.err := by
  apply BitVec.eq_of_toNat_eq
  have herr := s.err.isLt
  have hkey := s.keyValid.toNat_lt
  rw [toNat_field, toNat_statusWord]
  omega

/-- R23: bits 31:3 of STATUS are zero. -/
theorem high_statusWord (s : State) : (statusWord s).extractLsb' 3 29 = 0 := by
  apply BitVec.eq_of_toNat_eq
  have herr := s.err.isLt
  have hkey := s.keyValid.toNat_lt
  have hlow : 2 * s.err.toNat + s.keyValid.toNat < 2 ^ 3 := by omega
  rw [toNat_field, toNat_statusWord, Nat.div_eq_of_lt hlow]
  rfl

/-- The record with W = 0 at each offset of the window is the read there, whatever VAL (log entry 6). -/
theorem decodeRecord_reads (j : Fin 2) (k : Fin 4) (v : Word) :
    decodeRecord (record 0 0 0x00 v) = .rdCtrl v ∧ decodeRecord (record 0 0 0x04 v) = .rdStatus v ∧
      decodeRecord (record 0 0 (BitVec.ofNat 6 (0x08 + 4 * j.val)) v) = .rdReservedLow j v ∧
      decodeRecord (record 0 0 (BitVec.ofNat 6 (0x10 + 4 * k.val)) v) = .rdKey k v ∧
      decodeRecord (record 0 0 (BitVec.ofNat 6 (0x20 + 4 * k.val)) v) = .rdData k v ∧
      decodeRecord (record 0 0 (BitVec.ofNat 6 (0x30 + 4 * k.val)) v) = .rdReservedHigh k v := by
  have read (r : Reg) := decodeRecord_offsetOf 0 r v
  simp only [ofNat_add_four_mul]
  exact ⟨read .ctrl, read .status, read (.reservedLow j), read (.key k), read (.data k), read (.reservedHigh k)⟩

/-- Settles O21: every read is R181's, which answers `readReg`; what is left is the layout of STATUS and of a DATA
word. -/
theorem registerReads : Obligations.RegisterReads := by
  intro j k v s
  have answer (r : Reg) : exec (regInstr false r v) s = .next { s with answers := s.answers ++ [readReg s r] } :=
    exec_regInstr_read r v s
  exact ⟨decodeRecord_reads j k v, answer .ctrl, answer (.key k), answer (.reservedLow j), answer (.reservedHigh k),
    ⟨statusWord s, answer .status, getLsbD_statusWord s, err_statusWord s, high_statusWord s⟩,
    ⟨wordAt s.data k, answer (.data k), toNat_wordAt s.data k⟩⟩

end Machine

end Sys2Proof

/-! ### Reset (R220, R221) -/

namespace Sys2Proof.Machine

open Sys2Proof.Safety

/-- R221: a step with a reset due is the reset, whatever PHASE and the host's transactions are. -/
theorem step_resetDue {s : State} (h : ResetDue s) :
    step s = .next (applyReset (s.setResets (resetLine s.resets).2)) := by
  obtain ⟨-, hs⟩ | ⟨hnot, -⟩ := step_cases s
  · exact hs
  · exact absurd h (Bool.eq_false_iff.mp hnot)

/-- Settles O11: the blocks of the reset state are zero byte by byte, and a step with a reset due is the reset, which
leaves each store of the core at its value there. -/
theorem resetValuesAndAbandonment : Obligations.ResetValuesAndAbandonment := by
  have zeroAt (b : Fin 16) : zeroBlock[b] = 0 := getElem_zeroBlock b b.isLt
  refine ⟨⟨rfl, rfl, fun b => ⟨zeroAt b, zeroAt b, zeroAt b⟩, rfl, rfl⟩, fun s hdue => ?_⟩
  exact ⟨_, step_resetDue hdue, State.applyReset_keyValid _, State.applyReset_err _, State.applyReset_keyIn _,
    State.applyReset_data _, State.applyReset_ghost _, State.applyReset_phase _, State.applyReset_round _⟩

end Sys2Proof.Machine

/-! ### Decoding and encoding both ways (R55, R70-R78) -/

namespace Sys2Proof

theorem rejectedWord_iff (v : Word) : rejectedWord v = true ↔ ctrlCmd v ≠ 0 ∧ v ≠ 1 ∧ v ≠ 2 := by
  simp only [rejectedWord, ctrlCmd, Bool.and_eq_true, bne_iff_ne, and_assoc]

/-- R74's map, row by row, with what each row says of the word. -/
theorem decodeCtrl_cases (v : Word) :
    (ctrlCmd v = 0 ∧ decodeCtrl v = .nop (v.extractLsb' 2 30)) ∨ (v = 1 ∧ decodeCtrl v = .setKey) ∨
    (v = 2 ∧ decodeCtrl v = .encrypt) ∨ (rejectedWord v = true ∧ decodeCtrl v = .reject v) := by
  by_cases hcmd : ctrlCmd v = 0
  · exact .inl ⟨hcmd, decodeCtrl_of_ctrlCmd_eq_zero hcmd⟩
  by_cases h1 : v = 1
  · exact .inr (.inl ⟨h1, by rw [h1]; rfl⟩)
  by_cases h2 : v = 2
  · exact .inr (.inr (.inl ⟨h2, by rw [h2]; rfl⟩))
  · exact .inr (.inr (.inr ⟨(rejectedWord_iff v).mpr ⟨hcmd, h1, h2⟩, decodeCtrl_reject hcmd h1 h2⟩))

theorem decodeCtrl_of_rejectedWord {v : Word} (h : rejectedWord v = true) : decodeCtrl v = .reject v := by
  obtain ⟨hcmd, h1, h2⟩ := (rejectedWord_iff v).mp h
  exact decodeCtrl_reject hcmd h1 h2

/-- R55 and R75: a record is admitted when bit 39 is 0 and its offset is that of a register. -/
theorem admitted_record_iff (r : BitVec 40) :
    (HostAccess.record r).admitted = true ↔ r.extractLsb' 39 1 = 0 ∧ regAt (r.extractLsb' 32 6) ≠ none := by
  rw [Ne, regAt_eq_none, offset_low, not_ne_iff]
  simp [HostAccess.admitted]

/-- R75: a record is one register access, spelt by its own fields, or it is not admitted. -/
theorem decodeRecord_cases (r : BitVec 40) :
    (∃ write reg v, Code.txn (.record r) = encodeReg write reg v ∧ decodeRecord r = regInstr write reg v) ∨
    ((HostAccess.record r).admitted = false ∧ decodeRecord r = .unadmitted (.record r)) := by
  rw [← Bool.not_eq_true, admitted_record_iff]
  by_cases hbit : r.extractLsb' 39 1 = 0
  · cases hreg : regAt (r.extractLsb' 32 6) with
    | none => exact .inr ⟨by simp, by simp [decodeRecord, hbit, hreg]⟩
    | some reg =>
      refine .inl ⟨r.extractLsb' 38 1 == 1, reg, r.extractLsb' 0 32, ?_, by simp [decodeRecord, hbit, hreg]⟩
      have hfields := record_fields r
      have hw : (if (r.extractLsb' 38 1 == 1) = true then (1 : BitVec 1) else 0) = r.extractLsb' 38 1 := by
        generalize r.extractLsb' 38 1 = w
        revert w
        decide
      rw [encodeReg, hw, offsetOf_of_regAt hreg, ← hbit, hfields]
  · exact .inr ⟨fun h => hbit h.1, if_neg hbit⟩

/-- R55: an access that is not admitted is UNADMITTED, on a bus and as a record. -/
theorem decodeAccess_of_not_admitted {a : HostAccess} (h : a.admitted = false) :
    decodeAccess a = .unadmitted a := by
  cases a with
  | bus => exact Machine.decodeAccess_bus_of_not_admitted h
  | record r =>
    rw [← Bool.not_eq_true, admitted_record_iff] at h
    rw [decodeAccess, decodeRecord]
    split
    · rename_i hbit
      cases hreg : regAt (r.extractLsb' 32 6) with
      | none => rfl
      | some reg => exact absurd ⟨hbit, by simp [hreg]⟩ h
    · rfl

/-- Settles O1, row by row: the commands by the fields of the word, the register accesses by the fields of the record,
UNADMITTED by what it is not, and the phase codes by the table. -/
theorem decodeEncodeRoundTrip : Obligations.DecodeEncodeRoundTrip := by
  intro i hwf
  cases i with
  | nop hi =>
    show decodeCtrl (hi ++ 0) = .nop hi
    rw [decodeCtrl_of_ctrlCmd_eq_zero (ctrlCmd_append hi), high_append]
  | setKey | encrypt => rfl
  | reject v => exact decodeCtrl_of_rejectedWord hwf
  | wrCtrl v => exact decode_encodeReg true .ctrl v
  | wrStatus v => exact decode_encodeReg true .status v
  | wrReservedLow k v => exact decode_encodeReg true (.reservedLow k) v
  | wrKey k v => exact decode_encodeReg true (.key k) v
  | wrData k v => exact decode_encodeReg true (.data k) v
  | wrReservedHigh k v => exact decode_encodeReg true (.reservedHigh k) v
  | rdCtrl v => exact decode_encodeReg false .ctrl v
  | rdStatus v => exact decode_encodeReg false .status v
  | rdReservedLow k v => exact decode_encodeReg false (.reservedLow k) v
  | rdKey k v => exact decode_encodeReg false (.key k) v
  | rdData k v => exact decode_encodeReg false (.data k) v
  | rdReservedHigh k v => exact decode_encodeReg false (.reservedHigh k) v
  | unadmitted a => exact decodeAccess_of_not_admitted (by simpa [Instr.wf] using hwf)
  | _ => rfl

theorem encode_decodeCtrl (v : Word) : encode (decodeCtrl v) = .ctrl v := by
  obtain ⟨hcmd, hd⟩ | ⟨rfl, hd⟩ | ⟨rfl, hd⟩ | ⟨-, hd⟩ := decodeCtrl_cases v <;> rw [hd]
  · rw [encode, append_ctrlCmd hcmd]
  · rfl
  · rfl
  · rfl

theorem encode_decodeRecord (r : BitVec 40) : encode (decodeRecord r) = .txn (.record r) := by
  obtain ⟨write, reg, v, hr, hd⟩ | ⟨-, hd⟩ := decodeRecord_cases r <;> rw [hd]
  · rw [encode_regInstr, hr]
  · rfl

theorem encode_decodePhase (p : BitVec 5) : encode (decodePhase p) = .phase p := by
  revert p
  decide

theorem wf_decodeCtrl (v : Word) : (decodeCtrl v).wf = true := by
  obtain ⟨-, hd⟩ | ⟨-, hd⟩ | ⟨-, hd⟩ | ⟨hrejected, hd⟩ := decodeCtrl_cases v <;> rw [hd]
  · rfl
  · rfl
  · rfl
  · exact hrejected

theorem wf_decodeAccess (a : HostAccess) : (decodeAccess a).wf = true := by
  cases a with
  | record r =>
    obtain ⟨write, reg, v, -, hd⟩ | ⟨hnot, hd⟩ := decodeRecord_cases r <;> rw [decodeAccess, hd]
    · exact wf_regInstr write reg v
    · simpa [Instr.wf] using hnot
  | bus write addr width v =>
    rw [decodeAccess]
    cases hreg : busReg addr width with
    | some reg => exact wf_regInstr write reg v
    | none => simpa [Instr.wf] using (busReg_eq_none write addr width v).mp hreg

theorem wf_decodePhase (p : BitVec 5) : (decodePhase p).wf = true := by
  revert p
  decide

/-- Settles O2, format by format. -/
theorem encodeDecodeRoundTrip : Obligations.EncodeDecodeRoundTrip := by
  refine ⟨encode_decodeCtrl, encode_decodeRecord, encode_decodePhase, fun c => ?_⟩
  cases c with
  | ctrl v => exact wf_decodeCtrl v
  | txn a => exact wf_decodeAccess a
  | phase p => exact wf_decodePhase p

end Sys2Proof

/-! ### The first row that matches (R74, R75) -/

namespace Sys2Proof

theorem matchesWord_nop (v : Word) : (Instr.nop 0).row.matchesWord v.toNat = true ↔ ctrlCmd v = 0 := by
  rw [ctrlCmd_eq_iff]
  show (v.toNat &&& 3 == 0) = true ↔ v.toNat % 4 = 0
  rw [Nat.and_two_pow_sub_one_eq_mod _ 2, beq_iff_eq]

/-- A row whose mask is all the word's bits matches one word. -/
theorem and_full_mask (v : Word) : v.toNat &&& 0xFFFFFFFF = v.toNat := by
  rw [Nat.and_two_pow_sub_one_eq_mod _ 32]
  exact Nat.mod_eq_of_lt v.isLt

theorem matchesWord_setKey (v : Word) : Instr.setKey.row.matchesWord v.toNat = true ↔ v = 1 := by
  show (v.toNat &&& 0xFFFFFFFF == (1 : Word).toNat) = true ↔ v = 1
  rw [and_full_mask, beq_iff_eq, BitVec.toNat_inj]

theorem matchesWord_encrypt (v : Word) : Instr.encrypt.row.matchesWord v.toNat = true ↔ v = 2 := by
  show (v.toNat &&& 0xFFFFFFFF == (2 : Word).toNat) = true ↔ v = 2
  rw [and_full_mask, beq_iff_eq, BitVec.toNat_inj]

theorem matchesWord_reject (v : Word) : (Instr.reject 0).row.matchesWord v.toNat = true := by
  simp [OpcodeRow.matchesWord, Instr.row]

/-- R74: the tests of the decoder are the matches of the rows, in the same order. -/
theorem firstMatch_ctrlRows (v : Word) : firstMatch ctrlRows v.toNat = some (decodeCtrl v).row := by
  obtain ⟨hcmd, hd⟩ | ⟨rfl, hd⟩ | ⟨rfl, hd⟩ | ⟨hrejected, hd⟩ := decodeCtrl_cases v <;> rw [hd]
  · exact List.find?_cons_of_pos ((matchesWord_nop v).mpr hcmd)
  · rfl
  · rfl
  · obtain ⟨hcmd, h1, h2⟩ := (rejectedWord_iff v).mp hrejected
    refine (List.find?_cons_of_neg ?_).trans ((List.find?_cons_of_neg ?_).trans
      ((List.find?_cons_of_neg ?_).trans (List.find?_cons_of_pos (matchesWord_reject v))))
    · exact mt (matchesWord_nop v).mp hcmd
    · exact mt (matchesWord_setKey v).mp h1
    · exact mt (matchesWord_encrypt v).mp h2

/-- No TXN row looks at VAL. -/
theorem matchesWord_txn_val (b39 w : BitVec 1) (off : BitVec 6) (v : Word) {row : OpcodeRow} (h : row ∈ txnRows) :
    row.matchesWord (record b39 w off v).toNat = row.matchesWord (record b39 w off 0).toNat := by
  have hmask : ∀ row ∈ txnRows, row.mask = (row.mask >>> 32) <<< 32 := by decide
  rw [OpcodeRow.matchesWord, OpcodeRow.matchesWord, hmask row h, Laws.record_and, Laws.record_and]

theorem firstMatch_txnRows_val (b39 w : BitVec 1) (off : BitVec 6) (v : Word) :
    firstMatch txnRows (record b39 w off v).toNat = firstMatch txnRows (record b39 w off 0).toNat :=
  List.find?_congr fun _ => matchesWord_txn_val b39 w off v

theorem row_regInstr_val (write : Bool) (r : Reg) (v v' : Word) :
    (regInstr write r v).row = (regInstr write r v').row := by
  cases write <;> cases r <;> rfl

/-- The decoder takes the row without looking at VAL. -/
theorem row_decodeRecord_val (b39 w : BitVec 1) (off : BitVec 6) (v : Word) :
    (decodeRecord (record b39 w off v)).row = (decodeRecord (record b39 w off 0)).row := by
  simp only [decodeRecord, record_bit39, record_off, record_write, record_val]
  split
  · cases regAt off with
    | none => rfl
    | some r => exact row_regInstr_val _ r v 0
  · rfl

/-- R75: VAL aside, a record is one of 256 bytes. -/
theorem firstMatch_txnRows_header : ∀ (b39 w : BitVec 1) (off : BitVec 6),
    firstMatch txnRows (record b39 w off 0).toNat = some (decodeRecord (record b39 w off 0)).row := by
  decide

theorem firstMatch_txnRows (r : BitVec 40) : firstMatch txnRows r.toNat = some (decodeRecord r).row := by
  rw [← record_fields r, firstMatch_txnRows_val, row_decodeRecord_val]
  exact firstMatch_txnRows_header _ _ _

theorem row_decodePhase (p : BitVec 5) :
    (decodePhase p).row.matchesWord p.toNat = true ∧ (decodePhase p).row.mask = 0x1F := by
  revert p
  decide

/-- Settles O3: in CTRL the decoder's tests are the rows' matches; in TXN neither side looks at VAL, and the other
eight bits are checked; in PHASE the codes are. -/
theorem firstMatchingRowDecides : Obligations.FirstMatchingRowDecides :=
  ⟨firstMatch_ctrlRows, firstMatch_txnRows, row_decodePhase⟩

/-! ### Refused records and written-out words (R55, R75) -/

theorem decodeRecord_of_unaligned (b39 w : BitVec 1) (off : BitVec 6) (v : Word)
    (h : b39 = 1 ∨ off.extractLsb' 0 2 ≠ 0) :
    decodeRecord (record b39 w off v) = .unadmitted (.record (record b39 w off v)) := by
  refine decodeAccess_of_not_admitted (a := .record _) ?_
  rw [← Bool.not_eq_true, admitted_record_iff, record_bit39, record_off, Ne, regAt_eq_none, not_ne_iff]
  rintro ⟨rfl, hoff⟩
  exact h.elim (by decide) (absurd hoff)

/-- Settles O5: such a record is UNADMITTED, and UNADMITTED is refused by the offset and width it carries. -/
theorem unadmittedIsRefused : Obligations.UnadmittedIsRefused := by
  refine ⟨fun b39 w off v s h => ?_, Machine.exec_unadmitted⟩
  rw [decodeRecord_of_unaligned b39 w off v h, Machine.exec_unadmitted, Machine.accessOffset, record_off]
  rfl

/-- Settles O6, by evaluation of the decoder on the nine words. -/
theorem writtenOutWordsDecode : Obligations.WrittenOutWordsDecode := by
  unfold Obligations.WrittenOutWordsDecode
  decide

end Sys2Proof

/-! ### The step of each agent, and commands through CTRL (R180, R185-R188) -/

namespace Sys2Proof.Machine

open Sys2Proof.Safety

theorem exec_idle (s : State) : exec .idle s = .next s := rfl

/-- R180: an idle core with no reset due performs the host's oldest transaction. -/
theorem step_host {s : State} {a : HostAccess} {rest : List HostAccess} (hr : ¬ ResetDue s)
    (hp : s.phase = Phase.idle) (ha : s.pending = a :: rest) :
    step s = exec (decodeAccess a) ((s.setResets (resetLine s.resets).2).setPending rest) := by
  obtain ⟨hdue, -⟩ | ⟨-, hs⟩ := step_cases s
  · exact absurd hdue hr
  · rw [hs, agentStep, fetch_host (by simpa using hp) (by simpa using ha)]

/-- An idle core with no reset due and nothing asked of it performs IDLE (log entry 4). -/
theorem step_waiting {s : State} (hr : ¬ ResetDue s) (hp : s.phase = Phase.idle) (ha : s.pending = []) :
    step s = exec .idle (s.setResets (resetLine s.resets).2) := by
  obtain ⟨hdue, -⟩ | ⟨-, hs⟩ := step_cases s
  · exact absurd hdue hr
  · rw [hs, agentStep, fetch_waiting (by simpa using hp) (by simpa using ha)]

/-- Settles O8, by the step of the agent that has it. -/
theorem stepRunsTheDecodedInstruction : Obligations.StepRunsTheDecodedInstruction := by
  intro s hr
  exact ⟨step_busy hr, fun a rest => step_host hr, step_waiting hr, exec_idle⟩

theorem exec_encrypt (s : State) :
    exec .encrypt s = .next (if s.keyValid then acceptCommand Phase.seed s else raiseInvalidInput s) := rfl

/-- Settles O16, by the two answers of ENCRYPT. -/
theorem encryptAcceptedOrRefused : Obligations.EncryptAcceptedOrRefused := by
  intro s
  rw [exec_encrypt]
  refine ⟨fun hkey => ?_, fun hkey => ?_⟩
  · rw [if_pos hkey, State.acceptCommand_eq]
  · rw [if_neg (by simp [hkey]), State.raiseInvalidInput_eq]

/-- R189: what R74's map leaves to REJECT is what R185's second test finds. -/
theorem ctrlWrite_of_rejectedWord {v : Word} (h : rejectedWord v = true) (s : State) :
    ctrlWrite v s = raiseInvalidInput s := by
  obtain ⟨hcmd, h1, h2⟩ := (rejectedWord_iff v).mp h
  refine ctrlWrite_invalid hcmd ?_ s
  rw [Ne, ← BitVec.toNat_inj] at h1 h2
  rw [Ne, ctrlCmd_eq_iff] at hcmd
  rw [Ne, Ne, ctrlCmd_eq_iff, ctrlKeylen_eq_iff, ctrlRsvd_eq_iff]
  change v.toNat ≠ 1 at h1
  change v.toNat ≠ 2 at h2
  change v.toNat % 4 ≠ 0 at hcmd
  change v.toNat % 4 = 3 ∨ v.toNat / 4 % 4 ≠ 0 ∨ v.toNat / 16 ≠ 0
  omega

/-- Settles O13, row by row of R74's map. -/
theorem ctrlWriteFollowsTheMap : Obligations.CtrlWriteFollowsTheMap := by
  intro v s
  rw [exec_wrCtrl]
  obtain ⟨hcmd, hd⟩ | ⟨rfl, hd⟩ | ⟨rfl, hd⟩ | ⟨hrejected, hd⟩ := decodeCtrl_cases v <;> rw [hd]
  · rw [ctrlWrite_nop hcmd, exec_nop]
  · rw [ctrlWrite_one, exec_setKey]
  · rw [ctrlWrite_two, exec_encrypt]
    cases s.keyValid <;> rfl
  · rw [ctrlWrite_of_rejectedWord hrejected, exec_reject]

/-- The access placed by `placeAccess` is the host's oldest, in an idle core with no reset planned. -/
theorem step_placeAccess (a : HostAccess) (s : State) :
    step (placeAccess a s) = exec (decodeAccess a) { s with phase := Phase.idle, round := 0, resets := [] } := by
  rw [step_undisturbed rfl]
  rfl

/-- A phase code placed by `placePhase` is PHASE's, with no reset planned. -/
theorem step_placePhase {p : BitVec 5} (h : p ≠ Phase.idle) (s : State) :
    step (placePhase p s) = exec (decodePhase p) { s with phase := p, round := firstRound p, resets := [] } := by
  rw [step_undisturbed rfl, agentStep, fetch_busy h, placePhase, if_neg h]

/-- Settles O9: the record and the command word by the access they are placed as, the phase codes by PHASE. -/
theorem fetchWordRunsNext : Obligations.FetchWordRunsNext := by
  intro s
  refine ⟨fun r => ?_, fun v => ?_, fun p hp => ?_, ?_⟩
  · have hplace : s.withFetchWord 40 r.toNat = placeAccess (.record r) s := by
      simp [State.withFetchWord, placeWord]
    rw [hplace, step_placeAccess, decodeAccess]
  · have hplace : s.withFetchWord 32 v.toNat = placeAccess (.record (record 0 1 (offsetOf .ctrl) v)) s := by
      simp [State.withFetchWord, placeWord]
    rw [hplace, step_placeAccess, decodeAccess, decodeRecord_offsetOf]
    exact ctrlWriteFollowsTheMap v _
  · have hplace : s.withFetchWord 8 p.toNat = placePhase p s := by
      simp [State.withFetchWord, placeWord]
    rw [hplace, step_placePhase hp]
  · rw [step_undisturbed rfl]
    rfl

/-! ### The host's side of a step (R56, R58, R180, R229) -/

/-- R180: no micro-operation touches the host's transactions or the answers. -/
theorem exec_phase_host {p : BitVec 5} {s t : State} (h : exec (decodePhase p) s = .next t) :
    t.pending = s.pending ∧ t.answers = s.answers := by
  by_cases hp : p = Phase.kexp
  · subst hp
    cases h
    exact ⟨rfl, rfl⟩
  · have frame := exec_phase_frame hp h
    exact ⟨frame.pending, frame.answers⟩

theorem writeReg_host (r : Reg) (v : Word) (s : State) :
    (writeReg r v s).pending = s.pending ∧ (writeReg r v s).answers = s.answers := by
  cases r with
  | ctrl => obtain h | h | ⟨p, h⟩ := ctrlWrite_cases v s <;> simp [writeReg, h]
  | status | reservedLow | key | data | reservedHigh => exact ⟨rfl, rfl⟩

/-- R181, R182: a transaction that goes on answers one word when it is a read, and none when it is a write. -/
theorem exec_decodeAccess_host {a : HostAccess} {s t : State} (h : exec (decodeAccess a) s = .next t) :
    t.pending = s.pending ∧ ∃ l, t.answers = s.answers ++ l ∧ l.length ≤ 1 := by
  obtain ⟨r, v, -, rfl⟩ | ⟨r, v, -, rfl⟩ := exec_decodeAccess_next h
  · obtain ⟨hpending, hanswers⟩ := writeReg_host r v s
    exact ⟨hpending, [], by simp [hanswers], Nat.zero_le 1⟩
  · exact ⟨rfl, [readReg s r], rfl, Nat.le_refl 1⟩

/-- Settles O10, by which agent made the step. -/
theorem busyHoldsTheHost : Obligations.BusyHoldsTheHost := by
  intro s t h
  by_cases hr : ResetDue s
  · rw [step_resetDue hr] at h
    cases h
    exact ⟨fun _ => ⟨rfl, rfl⟩, fun _ hnot => absurd hr hnot, fun _ => ⟨rfl, rfl, rfl⟩⟩
  obtain ⟨hbusy, hx⟩ | ⟨hidle, a, rest, hp, hx⟩ | ⟨hidle, hp, rfl⟩ := step_next_cases hr h
  · have hhost := exec_phase_host hx
    exact ⟨fun _ => hhost, fun hidle => absurd hidle hbusy, fun hdue => absurd hdue hr⟩
  · refine ⟨fun hbusy => absurd hidle hbusy, fun _ _ => ?_, fun hdue => absurd hdue hr⟩
    rw [hp]
    exact exec_decodeAccess_host hx
  · exact ⟨fun hbusy => absurd hidle hbusy, fun _ _ => ⟨by simp [hp], [], by simp, Nat.zero_le 1⟩,
      fun hdue => absurd hdue hr⟩

/-- Settles O20, by R182 at the registers that ignore writes. -/
theorem ignoredWrites : Obligations.IgnoredWrites := by
  intro j k v s
  have write (r : Reg) := exec_regInstr_write r v s
  exact ⟨write .status, write (.reservedLow j), write (.reservedHigh k)⟩

/-- Settles O22: the word written is the word read back, and KEY reads as zero. -/
theorem readAfterWrite : Obligations.ReadAfterWrite := by
  intro k j v s
  refine ⟨⟨_, exec_regInstr_write (.data k) v s, ?_, wordAt_setWordAt_other s.data k j v⟩,
    ⟨_, exec_regInstr_write (.key k) v s, exec_regInstr_read (.key k) 0 _⟩⟩
  refine (exec_regInstr_read (.data k) 0 _).trans ?_
  simp [readReg, writeReg, State.answer, wordAt_setWordAt_same]

end Sys2Proof.Machine

/-! ### The schedule (R140, R162) and the boundaries of its micro-operations (R164) -/

namespace Sys2Proof.Machine

open Sys2Proof.Safety

/-- What the pairs of the schedule are, looked up in its 59 entries: a code of SEED to CLEANUP, and for the phases whose
meaning or successor looks at ROUND the rounds in which they run. -/
theorem scheduled_pair {p : BitVec 5} {r : BitVec 4} (h : (p, r) ∈ encryptSchedule) :
    (Phase.seed.toNat ≤ p.toNat ∧ p.toNat ≤ Phase.cleanup.toNat) ∧ (p = Phase.arkDecoy ∨ p = Phase.ark → r ≤ 9) ∧
    (p = Phase.shift → r ≤ 10) ∧ (p = Phase.mix → r ≠ 0) := by
  have checked : encryptSchedule.all (fun q =>
      (Phase.seed.toNat ≤ q.1.toNat ∧ q.1.toNat ≤ Phase.cleanup.toNat) ∧
      (q.1 = Phase.arkDecoy ∨ q.1 = Phase.ark → q.2 ≤ 9) ∧ (q.1 = Phase.shift → q.2 ≤ 10) ∧
      (q.1 = Phase.mix → q.2 ≠ 0)) = true := by decide
  exact of_decide_eq_true (List.all_eq_true.mp checked (p, r) h)

/-- The codes SEED to CLEANUP by name. -/
theorem engine_phase : ∀ p : BitVec 5, Phase.seed.toNat ≤ p.toNat → p.toNat ≤ Phase.cleanup.toNat →
    p = Phase.seed ∨ p = Phase.genmask ∨ p = Phase.buildSbox ∨ p = Phase.rkFinal ∨ p = Phase.ghostInit ∨
    p = Phase.rkMask ∨ p = Phase.r0Remask ∨ p = Phase.arkDecoy ∨ p = Phase.subUniform ∨ p = Phase.subDecoy ∨
    p = Phase.shift ∨ p = Phase.remaskMc ∨ p = Phase.mix ∨ p = Phase.ark ∨ p = Phase.ghostUnmask ∨
    p = Phase.ghostMix ∨ p = Phase.finalArk ∨ p = Phase.cleanup := by
  decide

/-- Case analysis over the pairs of the schedule, phase by phase. -/
theorem scheduled_cases {motive : ∀ (p : BitVec 5) (r : BitVec 4), (p, r) ∈ encryptSchedule → Prop}
    (seed : ∀ r h, motive Phase.seed r h) (genmask : ∀ r h, motive Phase.genmask r h)
    (buildSbox : ∀ r h, motive Phase.buildSbox r h) (rkFinal : ∀ r h, motive Phase.rkFinal r h)
    (ghostInit : ∀ r h, motive Phase.ghostInit r h) (rkMask : ∀ r h, motive Phase.rkMask r h)
    (r0Remask : ∀ r h, motive Phase.r0Remask r h) (arkDecoy : ∀ r h, r ≤ 9 → motive Phase.arkDecoy r h)
    (subUniform : ∀ r h, motive Phase.subUniform r h) (subDecoy : ∀ r h, motive Phase.subDecoy r h)
    (shift : ∀ r h, r ≤ 10 → motive Phase.shift r h) (remaskMc : ∀ r h, motive Phase.remaskMc r h)
    (mix : ∀ r h, r ≠ 0 → motive Phase.mix r h) (ark : ∀ r h, r ≤ 9 → motive Phase.ark r h)
    (ghostUnmask : ∀ r h, motive Phase.ghostUnmask r h)
    (ghostMix : ∀ r h, motive Phase.ghostMix r h) (finalArk : ∀ r h, motive Phase.finalArk r h)
    (cleanup : ∀ r h, motive Phase.cleanup r h) (p : BitVec 5) (r : BitVec 4) (h : (p, r) ∈ encryptSchedule) :
    motive p r h := by
  obtain ⟨⟨hlo, hhi⟩, hark, hshift, hmix⟩ := scheduled_pair h
  obtain rfl | rfl | rfl | rfl | rfl | rfl | rfl | rfl | rfl | rfl | rfl | rfl | rfl | rfl | rfl | rfl | rfl | rfl :=
    engine_phase p hlo hhi
  · exact seed r h
  · exact genmask r h
  · exact buildSbox r h
  · exact rkFinal r h
  · exact ghostInit r h
  · exact rkMask r h
  · exact r0Remask r h
  · exact arkDecoy r h (hark (.inl rfl))
  · exact subUniform r h
  · exact subDecoy r h
  · exact shift r h (hshift rfl)
  · exact remaskMc r h
  · exact mix r h (hmix rfl)
  · exact ark r h (hark (.inr rfl))
  · exact ghostUnmask r h
  · exact ghostMix r h
  · exact finalArk r h
  · exact cleanup r h

theorem subKind_cases (r : BitVec 4) : subKind r = Phase.subDecoy ∨ subKind r = Phase.subUniform := by
  rw [subKind]
  split
  · exact .inl rfl
  · exact .inr rfl

theorem arkKind_cases (r : BitVec 4) : arkKind r = Phase.arkDecoy ∨ arkKind r = Phase.ark := by
  rw [arkKind]
  split
  · exact .inl rfl
  · exact .inr rfl

theorem idle_not_scheduled (r : BitVec 4) : (Phase.idle, r) ∉ encryptSchedule := by
  intro h
  obtain ⟨⟨hlo, -⟩, -⟩ := scheduled_pair h
  exact absurd hlo (by decide)

theorem kexp_not_scheduled (r : BitVec 4) : (Phase.kexp, r) ∉ encryptSchedule := by
  intro h
  obtain ⟨⟨hlo, -⟩, -⟩ := scheduled_pair h
  exact absurd hlo (by decide)

theorem encryptSchedule_length : encryptSchedule.length = 59 := rfl

/-- `Next` goes through the schedule in order. -/
theorem nextPhase_schedule (n : Nat) (h : n + 1 < encryptSchedule.length) :
    nextPhase encryptSchedule[n].1 encryptSchedule[n].2 = some encryptSchedule[n + 1] := by
  have checked : ∀ m : Fin 58,
      (encryptSchedule[m.val]?.bind fun q => nextPhase q.1 q.2) = encryptSchedule[m.val + 1]? := by decide
  have hstep := checked ⟨n, Nat.lt_of_succ_lt_succ h⟩
  simpa only [List.getElem?_eq_getElem (Nat.lt_of_succ_lt h), List.getElem?_eq_getElem h, Option.bind_some] using
    hstep

/-- CLEANUP is the one pair that `Next` takes out of the schedule, and it is the last. -/
theorem next_scheduled {p p' : BitVec 5} {r r' : BitVec 4} (hs : (p, r) ∈ encryptSchedule) (hne : p ≠ Phase.cleanup)
    (hn : nextPhase p r = some (p', r')) : (p', r') ∈ encryptSchedule := by
  obtain ⟨n, hlt, he⟩ := List.getElem_of_mem hs
  by_cases hlast : n + 1 < encryptSchedule.length
  · have hnext := nextPhase_schedule n hlast
    rw [he, hn, Option.some.injEq] at hnext
    rw [hnext]
    exact List.getElem_mem hlast
  · obtain rfl : n = 58 := by rw [encryptSchedule_length] at hlt hlast; omega
    cases he
    exact absurd rfl hne

/-- The setup codes SEED to RK_MASK follow one another: up to RK_MASK the codes grow, and none is left out. -/
theorem next_setup {p p' : BitVec 5} {r r' : BitVec 4} (hs : (p, r) ∈ encryptSchedule) (hne : p ≠ Phase.cleanup)
    (hn : nextPhase p r = some (p', r')) :
    (p'.toNat ≤ p.toNat + 1 ∨ Phase.rkMask.toNat < p.toNat) ∧
    (p'.toNat ≤ Phase.rkMask.toNat → p.toNat < p'.toNat) := by
  cases p, r, hs using scheduled_cases with
  | arkDecoy r hs hr =>
    cases (nextPhase_arkDecoy hr).symm.trans hn
    obtain hk | hk := subKind_cases (r + 1) <;> rw [hk] <;> decide
  | ark r hs hr =>
    cases (nextPhase_ark hr).symm.trans hn
    obtain hk | hk := subKind_cases (r + 1) <;> rw [hk] <;> decide
  | shift r hs hr =>
    cases (nextPhase_shift hr).symm.trans hn
    split <;> decide
  | mix r =>
    cases hn
    obtain hk | hk := arkKind_cases r <;> rw [hk] <;> decide
  | cleanup => exact absurd rfl hne
  | _ =>
    cases hn
    decide

theorem toNat_succ_sub_one {r : BitVec 4} (h : r ≤ 9) : (r + 1).toNat - 1 = r.toNat := by bv_omega

/-- R164 at the start of a substitution: whichever it is, DATA holds the sum of the key addition before it. -/
theorem before_subKind {r : BitVec 4} (hr : r ≤ 9) (rk : KeyTable) (pt : Block) :
    domainBefore (subKind (r + 1)) = .min ∧ trueBefore rk pt (subKind (r + 1)) (r + 1) = afterArk rk pt r.toNat := by
  have hround := congrArg (afterArk rk pt) (toNat_succ_sub_one hr)
  obtain hk | hk := subKind_cases (r + 1) <;> rw [hk]
  · exact ⟨rfl, hround⟩
  · exact ⟨rfl, hround⟩

/-- R164 at the start of a key addition of rounds 1..9: whichever it is, DATA holds the mixed columns. -/
theorem before_arkKind {r : BitVec 4} (hr : r ≠ 0) (rk : KeyTable) (pt : Block) :
    domainBefore (arkKind r) = .mmix ∧
      trueBefore rk pt (arkKind r) r = mixColumns (shiftRows (subBytes (afterArk rk pt (r.toNat - 1)))) := by
  obtain hk | hk := arkKind_cases r <;> rw [hk]
  · exact ⟨rfl, if_neg hr⟩
  · exact ⟨rfl, if_neg hr⟩

/-- R164: DATA reaches a boundary in the domain, and with the true value, that the next micro-operation starts from. -/
theorem boundary_eq {p p' : BitVec 5} {r r' : BitVec 4} (hs : (p, r) ∈ encryptSchedule) (hne : p ≠ Phase.cleanup)
    (hn : nextPhase p r = some (p', r')) (rk : KeyTable) (pt : Block) :
    domainBefore p' = domainAfter p ∧ trueBefore rk pt p' r' = trueAfter rk pt p r := by
  cases p, r, hs using scheduled_cases with
  | arkDecoy r hs hr =>
    cases (nextPhase_arkDecoy hr).symm.trans hn
    exact before_subKind hr rk pt
  | ark r hs hr =>
    cases (nextPhase_ark hr).symm.trans hn
    exact before_subKind hr rk pt
  | shift r hs hr =>
    cases (nextPhase_shift hr).symm.trans hn
    split
    case isTrue hlast =>
      have hround : 9 = r.toNat - 1 := by rw [hlast]; rfl
      exact ⟨rfl, congrArg (fun n => shiftRows (subBytes (afterArk rk pt n))) hround⟩
    case isFalse => exact ⟨rfl, rfl⟩
  | mix r hs hr =>
    cases hn
    exact before_arkKind hr rk pt
  | cleanup => exact absurd rfl hne
  | _ =>
    cases hn
    exact ⟨rfl, rfl⟩

/-! R164's table, from the start of a micro-operation to its end. -/

section

variable (rk : KeyTable) (pt : Block) (r : BitVec 4)

/-- R156: the key addition of round `r` takes the value that it starts from to the state after it. -/
theorem trueAfter_arkDecoy :
    trueAfter rk pt Phase.arkDecoy r = xorBlock (trueBefore rk pt Phase.arkDecoy r) (keyAt rk r.toNat) := by
  show afterArk rk pt r.toNat = xorBlock (if r = 0 then pt else _) (keyAt rk r.toNat)
  by_cases hr : r = 0
  · rw [if_pos hr, hr]
    rfl
  · have hpos : r.toNat ≠ 0 := fun h => hr (BitVec.eq_of_toNat_eq h)
    obtain ⟨n, hn⟩ := Nat.exists_eq_succ_of_ne_zero hpos
    rw [if_neg hr, hn]
    rfl

theorem trueAfter_ark : trueAfter rk pt Phase.ark r = xorBlock (trueBefore rk pt Phase.ark r) (keyAt rk r.toNat) :=
  trueAfter_arkDecoy rk pt r

theorem trueAfter_subUniform : trueAfter rk pt Phase.subUniform r = subBytes (trueBefore rk pt Phase.subUniform r) :=
  rfl

theorem trueAfter_subDecoy : trueAfter rk pt Phase.subDecoy r = subBytes (trueBefore rk pt Phase.subDecoy r) := rfl

theorem trueAfter_shift : trueAfter rk pt Phase.shift r = shiftRows (trueBefore rk pt Phase.shift r) := rfl

theorem trueAfter_mix : trueAfter rk pt Phase.mix r = mixColumns (trueBefore rk pt Phase.mix r) := rfl

theorem trueAfter_finalArk :
    trueAfter rk pt Phase.finalArk r = xorBlock (trueBefore rk pt Phase.finalArk r) (keyAt rk 10) := rfl

end

end Sys2Proof.Machine

/-! ### Round keys under RK_MASK (R146) -/

namespace Sys2Proof.Machine

open Sys2Proof.Safety

theorem keyAt_eq_getElem (t : KeyTable) {r : Nat} (h : r < 11) : keyAt t r = t[r] := by
  simp [keyAt, h]

/-- R146: the remasking from MMIX to MIN puts both masks on a round key. -/
theorem remaskState_key (b : Block) (m : MaskVec) :
    remaskState b (mixMasks m) (uniformMask m[4]) = maskedBy (mixMasks m) (maskedBy (uniformMask m[4]) b) := by
  refine block_ext fun i j => ?_
  rw [stateAt_remaskState, stateAt_maskedBy, stateAt_maskedBy, BitVec.xor_assoc, BitVec.xor_comm (uniformMask m[4])[i]]

section

variable (m : MaskVec) (t : KeyTable)

/-- RKM after RK_MASK (R146). -/
def maskedTable : KeyTable :=
  tabulate fun r => if r.val ≤ 9 then remaskState t[r] (mixMasks m) (uniformMask m[4]) else t[r]

theorem keyAt_maskedTable {r : Nat} (h : r < 10) :
    keyAt (maskedTable m t) r = maskedBy (mixMasks m) (maskedBy (uniformMask m[4]) (keyAt t r)) := by
  have hr : r < 11 := Nat.lt_succ_of_lt h
  rw [keyAt_eq_getElem _ hr, keyAt_eq_getElem _ hr, maskedTable, getElem_tabulate, if_pos (Nat.le_of_lt_succ h)]
  exact remaskState_key _ m

theorem keyAt_maskedTable_ten : keyAt (maskedTable m t) 10 = keyAt t 10 := by
  rw [keyAt_ten, keyAt_ten, maskedTable, getElem_tabulate]
  rfl

end

theorem exec_rkMask (s : State) :
    exec .rkMask s = .next ((s.setRkm (maskedTable s.mask s.rkm)).setPhase Phase.r0Remask 0) := rfl

/-- Settles O37: blocks 0..9 carry both masks, which is what the addition of a round key needs. -/
theorem rkMaskMasksTenBlocks : Obligations.RkMaskMasksTenBlocks := by
  intro s
  refine ⟨_, exec_rkMask s, rfl, keyAt_maskedTable_ten s.mask s.rkm, fun r hr => ⟨fun i j => ?_, fun v a hv => ?_⟩⟩
  · show stateAt (keyAt (maskedTable s.mask s.rkm) r) i j = _
    rw [keyAt_maskedTable _ _ hr, stateAt_maskedBy, stateAt_maskedBy, BitVec.xor_assoc, BitVec.xor_assoc,
      BitVec.xor_comm (uniformMask _)[i]]
    simp
  · exact inDomain_addKey hv (keyAt_maskedTable _ _ hr)

end Sys2Proof.Machine

/-! ### What a micro-operation of the schedule does to the stores (R140-R160, R168) -/

namespace Sys2Proof.Machine

open Sys2Proof.Safety

/-- How many bytes a micro-operation draws (R168). -/
def drawsIn (p : BitVec 5) : Nat := if p = Phase.genmask then 18 else if p = Phase.subDecoy then 16 else 0

/-- The stores of masks, tables and draws: each is changed by its own micro-operations only, and GHOST not before
GHOST_INIT. `p` is the code of the micro-operation that leads from `s` to `t`. -/
structure StoreStep (p : BitVec 5) (s t : State) : Prop where
  seeded : p = Phase.seed → t.gen = seedGen s.source s.data
  draws : p ≠ Phase.seed → t.gen = genAfter (drawsIn p) s.gen
  masks : p ≠ Phase.genmask → t.mask = s.mask ∧ t.dm1 = s.dm1 ∧ t.dm2 = s.dm2
  table : p ≠ Phase.buildSbox → t.sm = s.sm
  roundKeys : p ≠ Phase.rkFinal → p ≠ Phase.rkMask → t.rkm = s.rkm
  ghost : p.toNat < Phase.ghostInit.toNat → t.ghost = s.ghost

/-- From GHOST_INIT on a micro-operation that draws nothing and keeps the tables needs nothing said of GHOST. -/
theorem StoreStep.of_kept {p : BitVec 5} {s t : State} (hp : Phase.ghostInit.toNat ≤ p.toNat)
    (hgen : t.gen = genAfter (drawsIn p) s.gen) (hmasks : t.mask = s.mask ∧ t.dm1 = s.dm1 ∧ t.dm2 = s.dm2)
    (hsm : t.sm = s.sm) (hrkm : t.rkm = s.rkm) : StoreStep p s t :=
  ⟨fun h => absurd hp (by rw [h]; decide), fun _ => hgen, fun _ => hmasks, fun _ => hsm, fun _ _ => hrkm,
    fun h => absurd hp (Nat.not_le.mpr h)⟩

/-- R162 and the frame of every micro-operation: from a pair of the schedule the engine goes on to the pair that `Next`
gives, and the stores that are not the micro-operation's own stay. -/
theorem exec_scheduled {p : BitVec 5} {r : BitVec 4} {s : State} (hs : (p, r) ∈ encryptSchedule) (hr : s.round = r) :
    ∃ t, exec (decodePhase p) s = .next t ∧ nextPhase p r = some (t.phase, t.round) ∧ StoreStep p s t := by
  have kept : s.mask = s.mask ∧ s.dm1 = s.dm1 ∧ s.dm2 = s.dm2 := ⟨rfl, rfl, rfl⟩
  subst hr
  generalize hround : s.round = r at hs ⊢
  cases p, r, hs using scheduled_cases with
  | seed =>
    exact ⟨_, exec_seed s, rfl, ⟨fun _ => rfl, absurd rfl, fun _ => kept, fun _ => rfl, fun _ _ => rfl, fun _ => rfl⟩⟩
  | genmask =>
    have hx := exec_genmask s
    rw [genmaskEffect_stores] at hx
    exact ⟨_, hx, rfl, ⟨fun h => absurd h (by decide), fun _ => rfl, absurd rfl, fun _ => rfl, fun _ _ => rfl,
      fun _ => rfl⟩⟩
  | buildSbox =>
    exact ⟨_, exec_buildSbox s, rfl, ⟨fun h => absurd h (by decide), fun _ => rfl, fun _ => kept, absurd rfl,
      fun _ _ => rfl, fun _ => rfl⟩⟩
  | rkFinal =>
    exact ⟨_, exec_rkFinal s, rfl, ⟨fun h => absurd h (by decide), fun _ => rfl, fun _ => kept, fun _ => rfl,
      absurd rfl, fun _ => rfl⟩⟩
  | ghostInit => exact ⟨_, exec_ghostInit s, rfl, .of_kept (by decide) rfl kept rfl rfl⟩
  | rkMask =>
    exact ⟨_, exec_rkMask s, rfl, ⟨fun h => absurd h (by decide), fun _ => rfl, fun _ => kept, fun _ => rfl,
      fun _ => absurd rfl, fun h => absurd h (by decide)⟩⟩
  | r0Remask => exact ⟨_, exec_r0Remask s, rfl, .of_kept (by decide) rfl kept rfl rfl⟩
  | arkDecoy r _ hr =>
    subst hround
    exact ⟨_, exec_arkDecoy hr, nextPhase_arkDecoy hr, .of_kept (by decide) rfl kept rfl rfl⟩
  | subUniform r =>
    subst hround
    exact ⟨_, exec_subUniform s, rfl, .of_kept (by decide) rfl kept rfl rfl⟩
  | subDecoy r =>
    subst hround
    obtain ⟨ghost, he, -⟩ := subDecoyEffect_stores s
    have hx := exec_subDecoy s
    rw [he] at hx
    exact ⟨_, hx, rfl, .of_kept (by decide) rfl kept rfl rfl⟩
  | shift r _ hr =>
    subst hround
    exact ⟨_, exec_shift hr, nextPhase_shift hr, .of_kept (by decide) rfl kept rfl rfl⟩
  | remaskMc r =>
    subst hround
    exact ⟨_, exec_remaskMc s, rfl, .of_kept (by decide) rfl kept rfl rfl⟩
  | mix r =>
    subst hround
    exact ⟨_, exec_mix s, rfl, .of_kept (by decide) rfl kept rfl rfl⟩
  | ark r _ hr =>
    subst hround
    exact ⟨_, exec_ark hr, nextPhase_ark hr, .of_kept (by decide) rfl kept rfl rfl⟩
  | ghostUnmask => exact ⟨_, exec_ghostUnmask s, rfl, .of_kept (by decide) rfl kept rfl rfl⟩
  | ghostMix => exact ⟨_, exec_ghostMix s, rfl, .of_kept (by decide) rfl kept rfl rfl⟩
  | finalArk => exact ⟨_, exec_finalArk s, rfl, .of_kept (by decide) rfl kept rfl rfl⟩
  | cleanup => exact ⟨_, exec_cleanup s, rfl, .of_kept (by decide) rfl kept rfl rfl⟩

/-! ### The domain invariant (R164) -/

/-- A table with the entries of R126 is the table of R126. -/
theorem eq_buildSM {sm : SubTable} {m4 m5 : Byte} (h : ∀ y : Byte, smAt sm y = sbox (y ^^^ m4) ^^^ m5) :
    sm = buildSM m4 m5 := by
  ext i hi : 1
  have hentry := (h (BitVec.ofNat 8 i)).trans (smAt_buildSM m4 m5 _).symm
  simpa [smAt, Nat.mod_eq_of_lt hi] using hentry

/-- R164's table at the end of a micro-operation: each takes DATA from the domain and the true value it starts from to
those the table gives. -/
theorem encryptInv_domain_after {pt : Block} {p : BitVec 5} {r : BitVec 4} {s t : State} (inv : EncryptInv pt s)
    (hp : s.phase = p) (hr : s.round = r) (h : exec (decodePhase p) s = .next t) :
    InDomain t.mask (domainAfter p) (trueAfter s.rk pt p r) t.data := by
  have hs := inv.scheduled
  have hdom := inv.domain
  rw [hp, hr] at hs hdom
  have hsub (hlt : Phase.buildSbox.toNat < p.toNat) {v : Block} (hv : InDomain s.mask .min v s.data) :
      InDomain s.mask .mout (subBytes v) (subMasked s.sm s.data) := by
    rw [eq_buildSM (inv.table (hp.symm ▸ hlt))]
    exact inDomain_subMasked hv
  have hkey (hlt : Phase.rkMask.toNat < p.toNat) := inv.maskedKeys (hp.symm ▸ hlt)
  cases p, r, hs using scheduled_cases with
  | genmask =>
    have hx := exec_genmask s
    rw [genmaskEffect_stores] at hx
    cases hx.symm.trans h
    exact hdom
  | r0Remask =>
    cases h
    obtain rfl : s.data = pt := hdom.trans (inDomain_z s.mask pt).symm
    exact inDomain_remaskState_noMask s.mask .mmix s.data
  | arkDecoy r _ hle =>
    subst hr
    cases (exec_arkDecoy hle).symm.trans h
    rw [trueAfter_arkDecoy]
    exact inDomain_addKey hdom (hkey (by decide) _ (Nat.lt_succ_of_le hle))
  | subUniform =>
    cases h
    rw [trueAfter_subUniform]
    exact hsub (by decide) hdom
  | subDecoy =>
    obtain ⟨ghost, he, -⟩ := subDecoyEffect_stores s
    have hx := exec_subDecoy s
    rw [he] at hx
    cases hx.symm.trans h
    rw [trueAfter_subDecoy]
    exact hsub (by decide) hdom
  | shift r _ hle =>
    subst hr
    cases (exec_shift hle).symm.trans h
    rw [trueAfter_shift]
    exact inDomain_shiftRows hdom
  | remaskMc =>
    cases h
    have hmoved := inDomain_remaskState .mrow (d := .mout) hdom
    exact hmoved
  | mix =>
    cases h
    rw [trueAfter_mix]
    exact inDomain_mixColumns (inv.masks (by rw [hp]; decide)) hdom
  | ark r _ hle =>
    subst hr
    cases (exec_ark hle).symm.trans h
    rw [trueAfter_ark]
    exact inDomain_addKey hdom (hkey (by decide) _ (Nat.lt_succ_of_le hle))
  | finalArk =>
    cases (exec_finalArk s).symm.trans h
    rw [trueAfter_finalArk, ← xorBlock_of_inDomain hdom (inv.lastKey (by rw [hp]; decide))]
    exact inDomain_z _ _
  | _ =>
    cases h
    exact hdom

end Sys2Proof.Machine

/-! ### The invariant of an ENCRYPT (R164, R165) -/

namespace Sys2Proof.Machine

open Sys2Proof.Safety

section

variable {pt : Block} {s t : State}

/-- An accepted ENCRYPT meets the invariant: no setup step is finished, and DATA is the plaintext. -/
theorem encryptInv_start (h : AtEncryptStart s) : EncryptInv s.data s := by
  obtain ⟨hp, hr⟩ := h
  have before {c : BitVec 5} (hc : Phase.seed.toNat ≤ c.toNat) (hlt : c.toNat < s.phase.toNat) : False := by
    rw [hp] at hlt
    exact Nat.not_lt.mpr hc hlt
  refine ⟨?_, ?_, fun h => (before (by decide) h).elim, fun h => (before (by decide) h).elim,
    fun h => (before (by decide) h).elim, fun h => (before (by decide) h).elim, fun h => (before (by decide) h).elim⟩
  · rw [hp, hr]
    decide
  · rw [hp, hr]
    exact inDomain_z s.mask s.data

/-- The invariant says nothing of the reset line. -/
theorem encryptInv_setResets (inv : EncryptInv pt s) (l : List Nat) : EncryptInv pt (s.setResets l) :=
  ⟨inv.scheduled, inv.domain, inv.masks, inv.table, inv.lastKey, inv.copiedKeys, inv.maskedKeys⟩

/-- A setup step that is finished at the end of a micro-operation is that micro-operation, or was finished before. -/
theorem finished_cases {c : BitVec 5} (hs : (s.phase, s.round) ∈ encryptSchedule) (hne : s.phase ≠ Phase.cleanup)
    (hnext : nextPhase s.phase s.round = some (t.phase, t.round)) (hc : c.toNat ≤ Phase.rkMask.toNat)
    (hlt : c.toNat < t.phase.toNat) : s.phase = c ∨ c.toNat < s.phase.toNat := by
  obtain ⟨hcodes, -⟩ := next_setup hs hne hnext
  rw [← BitVec.toNat_inj]
  omega

theorem ne_of_toNat_lt {p c d : BitVec 5} (hlt : c.toNat < p.toNat) (hd : d.toNat ≤ c.toNat) : p ≠ d := by
  rintro rfl
  exact Nat.not_lt.mpr hd hlt

/-! What each setup step computes, and that the steps after it keep it. `hdone` says that the step is the one performed,
or was finished before. -/

/-- R124. -/
theorem masks_next (inv : EncryptInv pt s) (store : StoreStep s.phase s t)
    (h : exec (decodePhase s.phase) s = .next t)
    (hdone : s.phase = Phase.genmask ∨ Phase.genmask.toNat < s.phase.toNat) :
    mixMasks t.mask = mixCol (rowMasks t.mask) := by
  obtain hp | hlt := hdone
  · have hx := exec_genmask s
    rw [genmaskEffect_stores] at hx
    rw [hp] at h
    cases hx.symm.trans h
    exact mixMasks_derivedVec _ _ _
  · obtain ⟨hmask, -⟩ := store.masks (ne_of_toNat_lt hlt (by decide))
    rw [hmask]
    exact inv.masks hlt

/-- R126. -/
theorem table_next (inv : EncryptInv pt s) (store : StoreStep s.phase s t)
    (h : exec (decodePhase s.phase) s = .next t)
    (hdone : s.phase = Phase.buildSbox ∨ Phase.buildSbox.toNat < s.phase.toNat) (y : Byte) :
    smAt t.sm y = sbox (y ^^^ t.mask[4]) ^^^ t.mask[5] := by
  obtain hp | hlt := hdone
  · rw [hp] at h
    cases h
    exact smAt_buildSM s.mask[4] s.mask[5] y
  · obtain ⟨hmask, -⟩ := store.masks (ne_of_toNat_lt hlt (by decide))
    rw [hmask, store.table (ne_of_toNat_lt hlt (by decide))]
    exact inv.table hlt y

/-- R144, block 10. -/
theorem lastKey_next (inv : EncryptInv pt s) (store : StoreStep s.phase s t)
    (h : exec (decodePhase s.phase) s = .next t)
    (hdone : s.phase = Phase.rkFinal ∨ Phase.rkFinal.toNat < s.phase.toNat) :
    keyAt t.rkm 10 = maskedBy (uniformMask t.mask[5]) (keyAt s.rk 10) := by
  obtain hp | hlt := hdone
  · rw [hp] at h
    cases h
    rw [State.setPhase_rkm, State.setRkm_rkm, keyAt_set_same, keyAt_ten]
    exact inDomain_remaskState_noMask s.mask .mout s.rk[10]
  · obtain ⟨hmask, -⟩ := store.masks (ne_of_toNat_lt hlt (by decide))
    have hkept : keyAt t.rkm 10 = keyAt s.rkm 10 := by
      by_cases hp : s.phase = Phase.rkMask
      · rw [hp] at h
        cases (exec_rkMask s).symm.trans h
        exact keyAt_maskedTable_ten s.mask s.rkm
      · rw [store.roundKeys (ne_of_toNat_lt hlt (Nat.le_refl _)) hp]
    rw [hmask, hkept]
    exact inv.lastKey hlt

/-- R144, blocks 0..9. -/
theorem copiedKeys_next (inv : EncryptInv pt s) (store : StoreStep s.phase s t)
    (h : exec (decodePhase s.phase) s = .next t)
    (hdone : s.phase = Phase.rkFinal ∨ Phase.rkFinal.toNat < s.phase.toNat)
    (hbefore : s.phase.toNat < Phase.rkMask.toNat) {r : Nat} (hr : r < 10) : keyAt t.rkm r = keyAt s.rk r := by
  obtain hp | hlt := hdone
  · rw [hp] at h
    cases h
    exact keyAt_set_other _ (by decide) hr.ne _
  · have hne : s.phase ≠ Phase.rkMask := fun hp => absurd hbefore (by rw [hp]; decide)
    rw [store.roundKeys (ne_of_toNat_lt hlt (Nat.le_refl _)) hne]
    exact inv.copiedKeys hlt hbefore.le r hr

/-- R146. -/
theorem maskedKeys_next (inv : EncryptInv pt s) (store : StoreStep s.phase s t)
    (h : exec (decodePhase s.phase) s = .next t)
    (hdone : s.phase = Phase.rkMask ∨ Phase.rkMask.toNat < s.phase.toNat) {r : Nat} (hr : r < 10) :
    keyAt t.rkm r = maskedBy (mixMasks t.mask) (maskedBy (uniformMask t.mask[4]) (keyAt s.rk r)) := by
  obtain hp | hlt := hdone
  · have hcopied := inv.copiedKeys (by rw [hp]; decide) (by rw [hp]) r hr
    rw [hp] at h
    cases (exec_rkMask s).symm.trans h
    rw [← hcopied]
    exact keyAt_maskedTable s.mask s.rkm hr
  · obtain ⟨hmask, -⟩ := store.masks (ne_of_toNat_lt hlt (by decide))
    rw [hmask, store.roundKeys (ne_of_toNat_lt hlt (by decide)) (ne_of_toNat_lt hlt (Nat.le_refl _))]
    exact inv.maskedKeys hlt r hr

/-- The engine's frame at every pair of the schedule: KEXP is not among them. -/
theorem exec_scheduled_frame (hs : (s.phase, s.round) ∈ encryptSchedule)
    (h : exec (decodePhase s.phase) s = .next t) : EngineFrame s t :=
  exec_phase_frame (fun hk => kexp_not_scheduled s.round (hk ▸ hs)) h

/-- Every micro-operation of an ENCRYPT but the last keeps the invariant. -/
theorem encryptInv_next (inv : EncryptInv pt s) (hne : s.phase ≠ Phase.cleanup)
    (h : exec (decodePhase s.phase) s = .next t) : EncryptInv pt t := by
  obtain ⟨t', ht', hnext, store⟩ := exec_scheduled inv.scheduled rfl
  cases ht'.symm.trans h
  have hrk : t.rk = s.rk := (exec_scheduled_frame inv.scheduled h).rk
  have done {c : BitVec 5} := finished_cases (c := c) inv.scheduled hne hnext
  refine ⟨next_scheduled inv.scheduled hne hnext, ?_, fun hlt => masks_next inv store h (done (by decide) hlt),
    fun hlt => table_next inv store h (done (by decide) hlt), fun hlt => ?_, fun hlt hle r hr => ?_,
    fun hlt r hr => ?_⟩
  · obtain ⟨hdomain, htrue⟩ := boundary_eq inv.scheduled hne hnext s.rk pt
    rw [hrk, hdomain, htrue]
    exact encryptInv_domain_after inv rfl rfl h
  · rw [hrk]
    exact lastKey_next inv store h (done (by decide) hlt)
  · obtain ⟨-, hgrow⟩ := next_setup inv.scheduled hne hnext
    rw [hrk]
    exact copiedKeys_next inv store h (done (by decide) hlt) ((hgrow hle).trans_le hle) hr
  · rw [hrk]
    exact maskedKeys_next inv store h (done (by decide) hlt) hr

theorem phase_ne_idle_of_scheduled (hs : (s.phase, s.round) ∈ encryptSchedule) : s.phase ≠ Phase.idle :=
  fun hp => idle_not_scheduled s.round (hp ▸ hs)

/-- What a step of an ENCRYPT that is no reset does: it goes on to the next pair, with the stores and the frame of its
micro-operation, DATA as R164's table has it and the invariant kept up to the last pair. -/
structure EncryptStep (pt : Block) (s t : State) : Prop where
  performs : exec (decodePhase s.phase) (s.setResets (resetLine s.resets).2) = .next t
  runs : step s = .next t
  pair : nextPhase s.phase s.round = some (t.phase, t.round)
  store : StoreStep s.phase s t
  frame : EngineFrame (s.setResets (resetLine s.resets).2) t
  domain : InDomain t.mask (domainAfter s.phase) (trueAfter s.rk pt s.phase s.round) t.data
  inv : s.phase ≠ Phase.cleanup → EncryptInv pt t

theorem encryptStep_of_inv (inv : EncryptInv pt s) (hr : ¬ ResetDue s) : ∃ t, EncryptStep pt s t := by
  have inv' := encryptInv_setResets inv (resetLine s.resets).2
  obtain ⟨t, ht, hnext, store⟩ := exec_scheduled inv'.scheduled rfl
  have hbusy := phase_ne_idle_of_scheduled inv.scheduled
  have hdomain := encryptInv_domain_after inv' rfl rfl ht
  exact ⟨t, ht, (step_busy hr hbusy).trans ht, hnext,
    ⟨store.seeded, store.draws, store.masks, store.table, store.roundKeys, store.ghost⟩,
    exec_scheduled_frame inv'.scheduled ht, hdomain, fun hne => encryptInv_next inv' hne ht⟩

theorem nextPhase_cleanup (r : BitVec 4) : nextPhase Phase.cleanup r = some (Phase.idle, 0) := rfl

/-- Settles O51, by the start of an ENCRYPT and the step from a state that meets the invariant. -/
theorem domainInvariantIsKept : Obligations.DomainInvariantIsKept := by
  refine ⟨fun s => encryptInv_start, fun pt s inv hr => ?_⟩
  obtain ⟨t, st⟩ := encryptStep_of_inv inv hr
  refine ⟨t, st.runs, st.domain, st.frame.rk, st.inv, fun hp => ?_⟩
  have hpair := st.pair
  rw [hp, nextPhase_cleanup, Option.some.injEq, Prod.mk.injEq] at hpair
  obtain ⟨hidle, -⟩ := hpair
  exact hidle.symm

/-- A row mask of any domain but Z is one of the bytes of MASK. -/
theorem rowMask_eq_mask (m : MaskVec) {d : Domain} (hd : d ≠ .z) (i : Nat) (hi : i < 4) :
    ∃ k : Fin 10, (rowMask m d)[i] = m[k] := by
  cases d with
  | z => exact absurd rfl hd
  | min => exact ⟨4, getElem_uniformMask m[4] i hi⟩
  | mout => exact ⟨5, getElem_uniformMask m[5] i hi⟩
  | mrow => exact ⟨⟨i, by omega⟩, getElem_rowMasks m i hi⟩
  | mmix => exact ⟨⟨6 + i, by omega⟩, getElem_mixMasks m i hi⟩

/-- R165: a byte under a nonzero mask is not its true value. -/
theorem getElem_ne_of_inDomain {m : MaskVec} {d : Domain} {v a : Block} (h : InDomain m d v a) (hd : d ≠ .z)
    (hm : ∀ k : Fin 10, m[k] ≠ 0) (b : Fin 16) : a[b] ≠ v[b] := by
  obtain ⟨k, hk⟩ := rowMask_eq_mask m hd (b.val % 4) (Nat.mod_lt _ (by decide))
  have hbyte : a[b] = v[b] ^^^ (rowMask m d)[b.val % 4]'(Nat.mod_lt _ (by decide)) := by
    rw [h]
    exact getElem_tabulate _ b.val b.isLt
  rw [hbyte, hk]
  intro heq
  exact hm k ((BitVec.xor_right_inj v[b]).mp (heq.trans BitVec.xor_zero.symm))

theorem domainBefore_ne_z : ∀ p : BitVec 5, Phase.arkDecoy.toNat ≤ p.toNat → p.toNat ≤ Phase.finalArk.toNat →
    domainBefore p ≠ .z := by
  decide

/-- Settles O52: between R0_REMASK and FINAL_ARK the domain is never Z, and in the others every row has a mask. -/
theorem noLeakWithNonzeroMasks : Obligations.NoLeakWithNonzeroMasks := by
  intro pt s inv hm hlo hhi
  exact getElem_ne_of_inDomain inv.domain (domainBefore_ne_z s.phase hlo hhi) hm

end

end Sys2Proof.Machine

/-! ### Whole runs of ENCRYPT (R140, R167, R170-R172) -/

namespace Sys2Proof.Machine

open Sys2Proof.Safety

theorem not_resetDue {s : State} (h : Undisturbed s) : ¬ ResetDue s := by
  rw [ResetDue, show s.resets = [] from h, resetLine_nil]
  decide

theorem EngineFrame.refl (s : State) : EngineFrame s s := ⟨rfl, rfl, rfl, rfl, rfl, rfl, rfl, rfl, rfl⟩

theorem EngineFrame.trans {s t u : State} (h : EngineFrame s t) (h' : EngineFrame t u) : EngineFrame s u :=
  ⟨h'.keyValid.trans h.keyValid, h'.err.trans h.err, h'.keyIn.trans h.keyIn, h'.k.trans h.k, h'.rk.trans h.rk,
    h'.source.trans h.source, h'.pending.trans h.pending, h'.answers.trans h.answers, h'.resets.trans h.resets⟩

/-- With no reset planned the step counts nothing, so its frame is the whole of R42's. -/
theorem EncryptStep.frame_undisturbed {pt : Block} {s t : State} (st : EncryptStep pt s t) (hu : Undisturbed s) :
    EngineFrame s t := by
  have hline : (resetLine s.resets).2 = s.resets := by rw [show s.resets = [] from hu, resetLine_nil]
  exact ⟨st.frame.keyValid, st.frame.err, st.frame.keyIn, st.frame.k, st.frame.rk, st.frame.source, st.frame.pending,
    st.frame.answers, st.frame.resets.trans hline⟩

/-! #### Places in the schedule -/

theorem mem_of_place {n : Nat} {p : BitVec 5} {r : BitVec 4} (h : encryptSchedule[n]? = some (p, r)) :
    (p, r) ∈ encryptSchedule :=
  List.mem_of_getElem? h

/-- R140: pair `n` is followed by pair `n + 1`. -/
theorem place_succ {n : Nat} {p p' : BitVec 5} {r r' : BitVec 4} (h : encryptSchedule[n]? = some (p, r))
    (hlt : n + 1 < encryptSchedule.length) (hn : nextPhase p r = some (p', r')) :
    encryptSchedule[n + 1]? = some (p', r') := by
  obtain ⟨hlt', he⟩ := List.getElem?_eq_some_iff.mp h
  have hnext := nextPhase_schedule n hlt
  rw [he] at hnext
  rw [List.getElem?_eq_getElem hlt, ← hnext, hn]

theorem ne_cleanup_of_place {n : Nat} {p : BitVec 5} {r : BitVec 4} (h : encryptSchedule[n]? = some (p, r))
    (hlt : n + 1 < encryptSchedule.length) : p ≠ Phase.cleanup := by
  rintro rfl
  exact idle_not_scheduled 0 (mem_of_place (place_succ h hlt (nextPhase_cleanup r)))

/-- SEED is the first pair only. -/
theorem ne_seed_of_place {n : Nat} {p : BitVec 5} {r : BitVec 4} (h : encryptSchedule[n]? = some (p, r))
    (hn : 1 ≤ n) : p ≠ Phase.seed := by
  have checked : (encryptSchedule.drop 1).all (·.1 ≠ Phase.seed) = true := by decide
  refine of_decide_eq_true (List.all_eq_true.mp checked (p, r) (List.mem_of_getElem? (i := n - 1) ?_))
  rw [List.getElem?_drop, Nat.add_sub_cancel' hn, h]

/-- GENMASK is among the first two pairs only. -/
theorem ne_genmask_of_place {n : Nat} {p : BitVec 5} {r : BitVec 4} (h : encryptSchedule[n]? = some (p, r))
    (hn : 2 ≤ n) : p ≠ Phase.genmask := by
  have checked : (encryptSchedule.drop 2).all (·.1 ≠ Phase.genmask) = true := by decide
  refine of_decide_eq_true (List.all_eq_true.mp checked (p, r) (List.mem_of_getElem? (i := n - 2) ?_))
  rw [List.getElem?_drop, Nat.add_sub_cancel' hn, h]

/-- How many bytes the `m` micro-operations from pair `n` on draw. -/
def drawsFrom (n : Nat) : Nat → Nat
  | 0 => 0
  | m + 1 => ((encryptSchedule[n]?.map fun q => drawsIn q.1).getD 0) + drawsFrom (n + 1) m

theorem drawsFrom_succ {n m : Nat} {p : BitVec 5} {r : BitVec 4} (h : encryptSchedule[n]? = some (p, r)) :
    drawsFrom n (m + 1) = drawsIn p + drawsFrom (n + 1) m := by
  rw [drawsFrom, h]
  rfl

/-- What the `m` micro-operations from pair `n` of the schedule leave, when no reset comes. -/
structure ScheduleRun (pt : Block) (n m : Nat) (s t : State) : Prop where
  runs : Host.Core.run core m s = .next t
  place : encryptSchedule[n + m]? = some (t.phase, t.round)
  inv : EncryptInv pt t
  frame : EngineFrame s t
  draws : 1 ≤ n → t.gen = genAfter (drawsFrom n m) s.gen
  masks : 2 ≤ n → t.mask = s.mask ∧ t.dm1 = s.dm1 ∧ t.dm2 = s.dm2

/-- R140: from pair `n` the engine performs the pairs in order. -/
theorem scheduleRun {pt : Block} {s : State} {n m : Nat} (inv : EncryptInv pt s) (hu : Undisturbed s)
    (hplace : encryptSchedule[n]? = some (s.phase, s.round)) (hlt : n + m < encryptSchedule.length) :
    ∃ t, ScheduleRun pt n m s t := by
  induction m generalizing n s with
  | zero => exact ⟨s, rfl, hplace, inv, .refl s, fun _ => rfl, fun _ => ⟨rfl, rfl, rfl⟩⟩
  | succ m ih =>
    have hlt' : n + 1 < encryptSchedule.length := by omega
    obtain ⟨u, st⟩ := encryptStep_of_inv inv (not_resetDue hu)
    have frame := st.frame_undisturbed hu
    obtain ⟨t, run⟩ := ih (st.inv (ne_cleanup_of_place hplace hlt')) (frame.resets.trans hu)
      (place_succ hplace hlt' st.pair) (by omega)
    refine ⟨t, (run_succ st.runs).trans run.runs, ?_, run.inv, frame.trans run.frame, fun hn => ?_, fun hn => ?_⟩
    · rw [← run.place, Nat.add_right_comm, Nat.add_assoc]
    · rw [run.draws (Nat.le_add_left 1 n), st.store.draws (ne_seed_of_place hplace hn), drawsFrom_succ hplace,
        genAfter_add]
    · obtain ⟨hm, h1, h2⟩ := run.masks (Nat.le_succ_of_le hn)
      obtain ⟨hm', h1', h2'⟩ := st.store.masks (ne_genmask_of_place hplace hn)
      exact ⟨hm.trans hm', h1.trans h1', h2.trans h2'⟩

theorem place_start {s : State} (h : AtEncryptStart s) : encryptSchedule[0]? = some (s.phase, s.round) := by
  obtain ⟨hp, hr⟩ := h
  rw [hp, hr]
  rfl

/-- What the 59 micro-operations of an ENCRYPT leave in every store (R172), and that the engine is IDLE (R170). -/
structure EncryptDone (s t : State) : Prop where
  runs : Host.Core.run core 59 s = .next t
  phase : t.phase = Phase.idle
  round : t.round = 0
  data : t.data = cipher s.rk s.data
  ghost : t.ghost = zeroBlock
  masks : ∃ u : State, Host.Core.run core 2 s = .next u ∧ t.mask = u.mask ∧ t.dm1 = u.dm1 ∧ t.dm2 = u.dm2
  table : t.sm = buildSM t.mask[4] t.mask[5]
  maskedKeys : ∀ r < 10, keyAt t.rkm r = maskedBy (mixMasks t.mask) (maskedBy (uniformMask t.mask[4]) (keyAt s.rk r))
  lastKey : keyAt t.rkm 10 = maskedBy (uniformMask t.mask[5]) (keyAt s.rk 10)
  gen : t.gen = genAfter 82 (seedGen s.source s.data)
  frame : EngineFrame s t

/-- CLEANUP from its pair of the schedule: DATA is unmasked, GHOST is cleared and the tables stay. -/
theorem cleanup_of_inv {pt : Block} {s t : State} (st : EncryptStep pt s t) (hp : s.phase = Phase.cleanup) :
    t.phase = Phase.idle ∧ t.round = 0 ∧ t.data = cipher s.rk pt ∧ t.ghost = zeroBlock ∧ t.gen = s.gen ∧
      (t.mask = s.mask ∧ t.dm1 = s.dm1 ∧ t.dm2 = s.dm2) ∧ t.sm = s.sm ∧ t.rkm = s.rkm := by
  have hdomain := st.domain
  have hx := st.performs
  rw [hp] at hdomain hx
  cases (exec_cleanup _).symm.trans hx
  have hdata : s.data = cipher s.rk pt := hdomain.trans (inDomain_z s.mask (cipher s.rk pt)).symm
  exact ⟨rfl, rfl, hdata, rfl, rfl, ⟨rfl, rfl, rfl⟩, rfl, rfl⟩

/-- R167 and R170 to R172: an ENCRYPT that no reset disturbs completes. SEED starts the chain of draws, GENMASK ends
the writes of the masks, and the 56 pairs after it lead to CLEANUP. -/
theorem encryptDone_of_start {s : State} (h : AtEncryptStart s) (hu : Undisturbed s) : ∃ t, EncryptDone s t := by
  obtain ⟨s1, st1⟩ := encryptStep_of_inv (encryptInv_start h) (not_resetDue hu)
  have frame1 := st1.frame_undisturbed hu
  have place1 := place_succ (place_start h) (by decide) st1.pair
  have inv1 := st1.inv (ne_cleanup_of_place (place_start h) (by decide))
  have hseed : s1.gen = seedGen s.source s.data := st1.store.seeded h.left
  obtain ⟨s2, run2⟩ := scheduleRun (m := 1) inv1 (frame1.resets.trans hu) place1 (by decide)
  have frame2 := frame1.trans run2.frame
  obtain ⟨s58, run58⟩ := scheduleRun (m := 56) run2.inv (frame2.resets.trans hu) run2.place (by decide)
  have frame58 := frame2.trans run58.frame
  have hcleanup : s58.phase = Phase.cleanup := congrArg Prod.fst (Option.some.inj run58.place).symm
  have hu58 : Undisturbed s58 := frame58.resets.trans hu
  obtain ⟨t, st⟩ := encryptStep_of_inv run58.inv (not_resetDue hu58)
  obtain ⟨hphase, hround, hdata, hghost, hgen, ⟨hmask, hdm1, hdm2⟩, hsm, hrkm⟩ := cleanup_of_inv st hcleanup
  obtain ⟨hmask2, hdm12, hdm22⟩ := run58.masks (by decide)
  have hrun2 : Host.Core.run core 2 s = .next s2 := (run_succ st1.runs).trans run2.runs
  have hrun58 : Host.Core.run core 58 s = .next s58 := (run_add hrun2).trans run58.runs
  have hlast : Host.Core.run core 1 s58 = .next t := run_succ st.runs
  refine ⟨t, (run_add hrun58).trans hlast, hphase, hround, ?_, hghost,
    ⟨s2, hrun2, hmask.trans hmask2, hdm1.trans hdm12, hdm2.trans hdm22⟩, ?_, fun r hr => ?_, ?_, ?_,
    frame58.trans (st.frame_undisturbed hu58)⟩
  · rw [hdata, frame58.rk]
  · rw [hsm, hmask]
    exact eq_buildSM (run58.inv.table (by rw [hcleanup]; decide))
  · rw [hrkm, hmask, ← frame58.rk]
    exact run58.inv.maskedKeys (by rw [hcleanup]; decide) r hr
  · rw [hrkm, hmask, ← frame58.rk]
    exact run58.inv.lastKey (by rw [hcleanup]; decide)
  · rw [hgen, run58.draws (by decide), run2.draws (by decide), hseed, ← genAfter_add]
    exact congrArg (genAfter · _) (by decide)

/-- Settles O50, by the run to each pair and the completed run. -/
theorem encryptFollowsTheSchedule : Obligations.EncryptFollowsTheSchedule := by
  intro s h hu
  refine ⟨encryptSchedule_length, fun n hn => ?_, ?_⟩
  · have hlt : 0 + n < encryptSchedule.length := by rwa [Nat.zero_add]
    obtain ⟨t, run⟩ := scheduleRun (encryptInv_start h) hu (place_start h) hlt
    have hplace := run.place
    rw [Nat.zero_add, List.getElem?_eq_getElem hn, Option.some.injEq] at hplace
    exact ⟨t, run.runs, hplace.symm⟩
  · obtain ⟨t, done⟩ := encryptDone_of_start h hu
    exact ⟨t, done.runs, done.phase, done.round⟩

/-- Settles O53: the textbook cipher under RK, which is the expansion of its first block. -/
theorem encryptComputesAes128 : Obligations.EncryptComputesAes128 := by
  intro s h hu hrk
  obtain ⟨t, done⟩ := encryptDone_of_start h hu
  refine ⟨t, done.runs, done.phase, ?_⟩
  rw [aes128, ← hrk, done.data]

/-- Settles O54: both end with the cipher of the same block under the same round keys. -/
theorem ciphertextIndependentOfMasks : Obligations.CiphertextIndependentOfMasks := by
  intro s t hs ht hus hut hrk hdata
  obtain ⟨s', done⟩ := encryptDone_of_start hs hus
  obtain ⟨t', done'⟩ := encryptDone_of_start ht hut
  refine ⟨s', t', done.runs, done'.runs, ?_⟩
  rw [done.data, done'.data, hrk, hdata]

/-- Settles O55, by the completed run. -/
theorem whatEncryptLeaves : Obligations.WhatEncryptLeaves := by
  intro s h hu
  obtain ⟨t, done⟩ := encryptDone_of_start h hu
  exact ⟨t, done.runs, done.data, done.ghost, done.masks, done.table, done.maskedKeys, done.lastKey, done.gen,
    done.frame.k, done.frame.rk, done.frame.keyIn, done.frame.keyValid, done.frame.err⟩

/-- Settles O56: the record is the CTRL write that starts the engine, and the run of ENCRYPT follows. -/
theorem encryptIsAtomicToTheHost : Obligations.EncryptIsAtomicToTheHost := by
  intro s rest hp hkey hu hpending
  have hrecord : decodeAccess (.record 0x4000000002) = .wrCtrl 2 := by decide
  have hstart : step s = .next (acceptCommand Phase.seed (s.setPending rest)) := by
    rw [step_undisturbed hu, agentStep, fetch_host hp hpending, hrecord, exec_wrCtrl, ctrlWrite_two,
      if_neg (by simp [hkey])]
  obtain ⟨t, done⟩ := encryptDone_of_start (s := acceptCommand Phase.seed (s.setPending rest)) ⟨rfl, rfl⟩ hu
  exact ⟨t, (run_succ hstart).trans done.runs, done.phase, done.round, done.frame.err, done.frame.keyValid.trans hkey,
    done.data, done.ghost, done.frame.keyIn, done.frame.k, done.frame.rk, done.frame.pending, done.frame.answers⟩

end Sys2Proof.Machine

/-! ### The machine's invariant (R24, R25, R28, R34, R78) -/

namespace Sys2Proof.Machine

open Sys2Proof.Safety

section

variable {s t : State}

/-- The invariant of an idle core: what it says beyond PHASE and ROUND. -/
theorem machineInv_idle (hp : s.phase = Phase.idle) (hr : s.round = 0) (hrk : s.keyValid = true → s.rk = keyExpand s.k)
    (herr : s.err = errOk ∨ s.err = errInvalidInput) (hghost : s.ghost = zeroBlock) : MachineInv s :=
  ⟨.inl ⟨hp, hr⟩, fun h => absurd (hp ▸ h) (idle_not_scheduled s.round), hrk, herr, fun h => absurd hp h,
    fun _ => hghost⟩

/-- Reset gives every store that the invariant speaks of its value. -/
theorem machineInv_applyReset (s : State) : MachineInv (applyReset s) :=
  machineInv_idle rfl rfl nofun (.inl rfl) rfl

/-- Settles O57: the state after reset is a reset of itself. -/
theorem resetMeetsMachineInvariant : Obligations.ResetMeetsMachineInvariant :=
  machineInv_applyReset State.reset

/-- A step that keeps what the invariant speaks of keeps the invariant. -/
theorem machineInv_congr (inv : MachineInv s) (hp : t.phase = s.phase) (hr : t.round = s.round)
    (hv : t.keyValid = s.keyValid) (hk : t.k = s.k) (hrk : t.rk = s.rk) (herr : t.err = s.err)
    (hg : t.ghost = s.ghost) : MachineInv t := by
  constructor <;> simp only [hp, hr, hv, hk, hrk, herr, hg]
  exacts [inv.scheduled, inv.keyed, inv.expanded, inv.errCode, inv.accepted, inv.ghostClear]

theorem ghost_of_idle (inv : MachineInv s) (hp : s.phase = Phase.idle) : s.ghost = zeroBlock :=
  inv.ghostClear (by rw [hp]; decide)

theorem round_of_idle (inv : MachineInv s) (hp : s.phase = Phase.idle) : s.round = 0 := by
  obtain ⟨-, hr⟩ | ⟨hk, -⟩ | hs := inv.scheduled
  · exact hr
  · rw [hp] at hk
    exact absurd hk (by decide)
  · exact absurd (hp ▸ hs) (idle_not_scheduled s.round)

/-- R189: a rejected command leaves an idle core idle, with the one other code of ERR. -/
theorem machineInv_raise (inv : MachineInv s) (hp : s.phase = Phase.idle) : MachineInv (raiseInvalidInput s) := by
  have hround := round_of_idle inv hp
  have hghost := ghost_of_idle inv hp
  exact machineInv_idle hp hround inv.expanded (.inr rfl) hghost

/-- R187. -/
theorem machineInv_acceptKexp (inv : MachineInv s) (hp : s.phase = Phase.idle) :
    MachineInv (acceptCommand Phase.kexp s) := by
  have hghost := ghost_of_idle inv hp
  exact ⟨.inr (.inl ⟨rfl, rfl⟩), fun h => absurd h (kexp_not_scheduled 0), inv.expanded, .inl rfl, fun _ => rfl,
    fun _ => hghost⟩

/-- R188: ENCRYPT starts at the first pair of the schedule, and only with a key. -/
theorem machineInv_acceptSeed (inv : MachineInv s) (hp : s.phase = Phase.idle) (hkey : s.keyValid = true) :
    MachineInv (acceptCommand Phase.seed s) := by
  have hghost := ghost_of_idle inv hp
  exact ⟨.inr (.inr List.mem_cons_self), fun _ => hkey, inv.expanded, .inl rfl, fun _ => rfl, fun _ => hghost⟩

/-- A CTRL write in an idle core, by R74's map (R185). -/
theorem machineInv_ctrlWrite (inv : MachineInv s) (hp : s.phase = Phase.idle) (v : Word) :
    MachineInv (ctrlWrite v s) := by
  obtain ⟨hcmd, -⟩ | ⟨rfl, -⟩ | ⟨rfl, -⟩ | ⟨hrejected, -⟩ := decodeCtrl_cases v
  · rw [ctrlWrite_nop hcmd]
    exact inv
  · exact machineInv_acceptKexp inv hp
  · rw [ctrlWrite_two]
    split
    case isTrue => exact machineInv_raise inv hp
    case isFalse hkey => exact machineInv_acceptSeed inv hp (by simpa using hkey)
  · rw [ctrlWrite_of_rejectedWord hrejected]
    exact machineInv_raise inv hp

/-- A host transaction in an idle core. -/
theorem machineInv_host (inv : MachineInv s) (hp : s.phase = Phase.idle) {a : HostAccess}
    (h : exec (decodeAccess a) s = .next t) : MachineInv t := by
  obtain ⟨r, v, -, rfl⟩ | ⟨r, v, -, rfl⟩ := exec_decodeAccess_next h
  · cases r with
    | ctrl => exact machineInv_ctrlWrite inv hp v
    | status | reservedLow | key | data | reservedHigh => exact machineInv_congr inv rfl rfl rfl rfl rfl rfl rfl
  · exact machineInv_congr inv rfl rfl rfl rfl rfl rfl rfl

/-- KEXP leaves an idle core whose RK is the expansion of its new K (R112). -/
theorem machineInv_kexp (inv : MachineInv s) (hp : s.phase = Phase.kexp) (h : exec .kexp s = .next t) :
    MachineInv t := by
  cases h
  exact machineInv_idle rfl rfl (fun _ => rfl) inv.errCode (inv.ghostClear (by rw [hp]; decide))

/-- A micro-operation of the schedule leads to the next pair, or from CLEANUP to an idle core with GHOST clear. -/
theorem machineInv_scheduled (inv : MachineInv s) (hs : (s.phase, s.round) ∈ encryptSchedule)
    (h : exec (decodePhase s.phase) s = .next t) : MachineInv t := by
  have frame := exec_scheduled_frame hs h
  have hrk : t.keyValid = true → t.rk = keyExpand t.k := by
    rw [frame.keyValid, frame.rk, frame.k]
    exact inv.expanded
  have herr : t.err = errOk := frame.err.trans (inv.accepted (phase_ne_idle_of_scheduled hs))
  by_cases hlast : s.phase = Phase.cleanup
  · rw [hlast] at h
    cases h
    exact machineInv_idle rfl rfl hrk (.inl herr) rfl
  · obtain ⟨t', ht', hnext, store⟩ := exec_scheduled hs rfl
    cases ht'.symm.trans h
    have hs' := next_scheduled hs hlast hnext
    refine ⟨.inr (.inr hs'), fun _ => frame.keyValid.trans (inv.keyed hs), hrk, .inl herr, fun _ => herr, fun hle => ?_⟩
    obtain ⟨-, hgrow⟩ := next_setup hs hlast hnext
    have hlt : s.phase.toNat < t.phase.toNat := hgrow (hle.trans (by decide))
    rw [store.ghost (hlt.trans_le hle)]
    exact inv.ghostClear (hlt.le.trans hle)

/-- R78 and R162: from a state that meets the invariant the engine goes on. -/
theorem exec_busy_next (inv : MachineInv s) (hp : s.phase ≠ Phase.idle) :
    ∃ t, exec (decodePhase s.phase) s = .next t ∧ MachineInv t := by
  obtain ⟨hidle, -⟩ | ⟨hk, -⟩ | hs := inv.scheduled
  · exact absurd hidle hp
  · rw [hk]
    exact ⟨_, exec_kexp s, machineInv_kexp inv hk (exec_kexp s)⟩
  · obtain ⟨t, ht, -⟩ := exec_scheduled hs rfl
    exact ⟨t, ht, machineInv_scheduled inv hs ht⟩

/-- A host transaction goes on or is refused. -/
theorem exec_decodeAccess_ne_fault (a : HostAccess) (s : State) (f : Fault) : exec (decodeAccess a) s ≠ .fault f := by
  obtain ⟨write, r, v, hd⟩ | hd := decodeAccess_cases a <;> rw [hd]
  · cases write
    case true => rw [exec_regInstr_write]; nofun
    case false => rw [exec_regInstr_read]; nofun
  · nofun

/-- Settles O58, by the agent that has the step. -/
theorem machineInvariantIsKept : Obligations.MachineInvariantIsKept := by
  intro s inv
  by_cases hr : ResetDue s
  · rw [step_resetDue hr]
    refine ⟨fun t h => ?_, nofun⟩
    cases h
    exact machineInv_applyReset _
  have inv' : MachineInv (s.setResets (resetLine s.resets).2) :=
    machineInv_congr inv rfl rfl rfl rfl rfl rfl rfl
  by_cases hp : s.phase = Phase.idle
  · cases ha : s.pending with
    | nil =>
      rw [step_waiting hr hp ha]
      refine ⟨fun t h => ?_, nofun⟩
      cases h
      exact inv'
    | cons a rest =>
      rw [step_host hr hp ha]
      have inv'' : MachineInv ((s.setResets (resetLine s.resets).2).setPending rest) :=
        machineInv_congr inv' rfl rfl rfl rfl rfl rfl rfl
      exact ⟨fun t h => machineInv_host inv'' hp h, fun f => exec_decodeAccess_ne_fault a _ f⟩
  · obtain ⟨u, hu, hinv⟩ := exec_busy_next inv' hp
    rw [step_busy hr hp]
    refine ⟨fun t h => ?_, fun f h => ?_⟩
    · cases hu.symm.trans h
      exact hinv
    · cases hu.symm.trans h

end

end Sys2Proof.Machine

/-! ### Two cores that the host cannot tell apart (R43, R171) -/

namespace Sys2Proof.Machine

open Sys2Proof.Safety

/-- Two cores that go on alike: both at rest or loading the same key, with all that the host may see the same; or both
encrypting the same block, with all the same but DATA, which each core holds under its own masks. -/
inductive Lockstep (s t : State) : Prop
  | resting (agree : HostAgree s t) (phase : s.phase = Phase.idle ∨ s.phase = Phase.kexp)
  | encrypting (pt : Block) (left : EncryptInv pt s) (right : EncryptInv pt t)
      (agree : HostAgree s (t.setData s.data))

/-- Two outcomes of the same kind: the same stop, or two next states that `R` relates. -/
inductive SameOutcome (R : State → State → Prop) :
    Host.Outcome State Fault Refusal → Host.Outcome State Fault Refusal → Prop
  | next {s t : State} (h : R s t) : SameOutcome R (.next s) (.next t)
  | fault (f : Fault) : SameOutcome R (.fault f) (.fault f)
  | refused (f : Refusal) : SameOutcome R (.refused f) (.refused f)

section

variable {s t s' t' : State}

/-- All that the host may see but DATA is the same in both cores. -/
theorem Lockstep.agreeBesidesData (l : Lockstep s t) : HostAgree s (t.setData s.data) := by
  cases l with
  | resting agree phase => exact { agree with data := rfl }
  | encrypting pt left right agree => exact agree

theorem hostAgree_of_data_eq (agree : HostAgree s (t.setData s.data)) (h : s.data = t.data) : HostAgree s t :=
  { agree with data := h }

theorem hostAgree_setResets (agree : HostAgree s t) (l : List Nat) : HostAgree (s.setResets l) (t.setResets l) :=
  { agree with resets := rfl }

theorem hostAgree_setPending (agree : HostAgree s t) (l : List HostAccess) :
    HostAgree (s.setPending l) (t.setPending l) :=
  { agree with pending := rfl }

theorem hostAgree_setKey (agree : HostAgree s t) (key : Block) (table : KeyTable) :
    HostAgree (s.setKey key table) (t.setKey key table) :=
  { agree with k := rfl, rk := rfl, keyValid := rfl }

theorem hostAgree_setPhase (agree : HostAgree s t) (p : BitVec 5) (r : BitVec 4) :
    HostAgree (s.setPhase p r) (t.setPhase p r) :=
  { agree with phase := rfl, round := rfl }

theorem hostAgree_raise (agree : HostAgree s t) : HostAgree (raiseInvalidInput s) (raiseInvalidInput t) :=
  { agree with err := rfl }

theorem hostAgree_accept (agree : HostAgree s t) (p : BitVec 5) :
    HostAgree (acceptCommand p s) (acceptCommand p t) :=
  { agree with err := rfl, phase := rfl, round := rfl }

/-- R181: what a read returns is among what the host may see. -/
theorem readReg_eq (agree : HostAgree s t) (r : Reg) : readReg s r = readReg t r := by
  cases r with
  | status => rw [readReg, readReg, statusWord, statusWord, agree.err, agree.keyValid]
  | data k => rw [readReg, readReg, agree.data]
  | ctrl | reservedLow | key | reservedHigh => rfl

theorem hostAgree_answer (agree : HostAgree s t) (r : Reg) :
    HostAgree (s.answer (readReg s r)) (t.answer (readReg t r)) := by
  rw [readReg_eq agree r]
  exact { agree with answers := congrArg (· ++ [readReg t r]) agree.answers }

/-- Reset leaves nothing to tell two cores apart by, but what lies outside them (R220). -/
theorem hostAgree_applyReset (agree : HostAgree s (t.setData s.data)) (l : List Nat) :
    HostAgree (applyReset (s.setResets l)) (applyReset (t.setResets l)) :=
  ⟨rfl, rfl, rfl, rfl, rfl, rfl, rfl, rfl, agree.pending, agree.answers, rfl⟩

/-- An ENCRYPT accepted in both cores encrypts the same block. -/
theorem lockstep_acceptSeed (agree : HostAgree s t) :
    Lockstep (acceptCommand Phase.seed s) (acceptCommand Phase.seed t) := by
  have start (u : State) : EncryptInv u.data (acceptCommand Phase.seed u) :=
    encryptInv_start (s := acceptCommand Phase.seed u) ⟨rfl, rfl⟩
  have right := start t
  rw [← agree.data] at right
  exact .encrypting s.data (start s) right { hostAgree_accept agree Phase.seed with data := rfl }

/-- A CTRL write has the same effect in both cores, by R74's map (R185). -/
theorem lockstep_ctrlWrite (agree : HostAgree s t) (hp : s.phase = Phase.idle) (v : Word) :
    Lockstep (ctrlWrite v s) (ctrlWrite v t) := by
  obtain ⟨hcmd, -⟩ | ⟨rfl, -⟩ | ⟨rfl, -⟩ | ⟨hrejected, -⟩ := decodeCtrl_cases v
  · rw [ctrlWrite_nop hcmd, ctrlWrite_nop hcmd]
    exact .resting agree (.inl hp)
  · rw [ctrlWrite_one, ctrlWrite_one]
    exact .resting (hostAgree_accept agree _) (.inr rfl)
  · rw [ctrlWrite_two, ctrlWrite_two, agree.keyValid]
    split
    case isTrue => exact .resting (hostAgree_raise agree) (.inl hp)
    case isFalse => exact lockstep_acceptSeed agree
  · rw [ctrlWrite_of_rejectedWord hrejected, ctrlWrite_of_rejectedWord hrejected]
    exact .resting (hostAgree_raise agree) (.inl hp)

/-- A register write has the same effect in both cores (R182). -/
theorem lockstep_writeReg (agree : HostAgree s t) (hp : s.phase = Phase.idle) (r : Reg) (v : Word) :
    Lockstep (writeReg r v s) (writeReg r v t) := by
  cases r with
  | ctrl => exact lockstep_ctrlWrite agree hp v
  | status | reservedLow | reservedHigh => exact .resting agree (.inl hp)
  | key k => exact .resting { agree with keyIn := congrArg (setWordAt · k v) agree.keyIn } (.inl hp)
  | data k => exact .resting { agree with data := congrArg (setWordAt · k v) agree.data } (.inl hp)

/-- A host transaction in two idle cores that agree has outcomes of the same kind. -/
theorem sameOutcome_host (agree : HostAgree s t) (hp : s.phase = Phase.idle) (a : HostAccess) :
    SameOutcome Lockstep (exec (decodeAccess a) s) (exec (decodeAccess a) t) := by
  obtain ⟨write, r, v, hd⟩ | hd := decodeAccess_cases a <;> rw [hd]
  · cases write
    case true =>
      rw [exec_regInstr_write, exec_regInstr_write]
      exact .next (lockstep_writeReg agree hp r v)
    case false =>
      rw [exec_regInstr_read, exec_regInstr_read]
      exact .next (.resting (hostAgree_answer agree r) (.inl hp))
  · exact .refused _

/-- KEXP loads the same key in both cores (R112). -/
theorem sameOutcome_kexp (agree : HostAgree s t) : SameOutcome Lockstep (exec .kexp s) (exec .kexp t) := by
  rw [exec_kexp, exec_kexp, agree.keyIn]
  exact .next (.resting (hostAgree_setPhase (hostAgree_setKey agree _ _) _ _) (.inl rfl))

/-- Two micro-operations of the same pair keep the agreement but for DATA: the pair that follows is the same (R162),
and the frame leaves the rest. -/
theorem hostAgree_encryptStep {pt : Block} (agree : HostAgree s (t.setData s.data)) (left : EncryptStep pt s s')
    (right : EncryptStep pt t t') : HostAgree s' (t'.setData s'.data) := by
  have hpair : some (s'.phase, s'.round) = some (t'.phase, t'.round) := by
    rw [← left.pair, ← right.pair]
    exact congrArg₂ nextPhase agree.phase agree.round
  rw [Option.some.injEq, Prod.mk.injEq] at hpair
  obtain ⟨hphase, hround⟩ := hpair
  have hresets : (resetLine s.resets).2 = (resetLine t.resets).2 := congrArg (fun l => (resetLine l).2) agree.resets
  exact {
    keyValid := left.frame.keyValid.trans (agree.keyValid.trans right.frame.keyValid.symm)
    err := left.frame.err.trans (agree.err.trans right.frame.err.symm)
    keyIn := left.frame.keyIn.trans (agree.keyIn.trans right.frame.keyIn.symm)
    data := rfl
    k := left.frame.k.trans (agree.k.trans right.frame.k.symm)
    rk := left.frame.rk.trans (agree.rk.trans right.frame.rk.symm)
    phase := hphase
    round := hround
    pending := left.frame.pending.trans (agree.pending.trans right.frame.pending.symm)
    answers := left.frame.answers.trans (agree.answers.trans right.frame.answers.symm)
    resets := left.frame.resets.trans (hresets.trans right.frame.resets.symm) }

/-- Two encrypting cores go on alike; after CLEANUP both hold the same ciphertext. -/
theorem lockstep_encryptStep {pt : Block} (agree : HostAgree s (t.setData s.data)) (left : EncryptStep pt s s')
    (right : EncryptStep pt t t') : Lockstep s' t' := by
  have agree' := hostAgree_encryptStep agree left right
  have hphase : s.phase = t.phase := agree.phase
  by_cases hlast : s.phase = Phase.cleanup
  · obtain ⟨hidle, -, hdata, -⟩ := cleanup_of_inv left hlast
    obtain ⟨-, -, hdata', -⟩ := cleanup_of_inv right (hphase.symm.trans hlast)
    have hcipher : cipher s.rk pt = cipher t.rk pt := congrArg (cipher · pt) agree.rk
    exact .resting (hostAgree_of_data_eq agree' (hdata.trans (hcipher.trans hdata'.symm))) (.inl hidle)
  · exact .encrypting pt (left.inv hlast) (right.inv (hphase ▸ hlast)) agree'

/-- Every step of two cores in lockstep is the same stop, or leaves them in lockstep. -/
theorem sameOutcome_step (l : Lockstep s t) : SameOutcome Lockstep (step s) (step t) := by
  have hline : s.resets = t.resets := l.agreeBesidesData.resets
  by_cases hr : ResetDue s
  · have hr' : ResetDue t := by rwa [ResetDue, ← hline]
    rw [step_resetDue hr, step_resetDue hr', ← hline]
    exact .next (.resting (hostAgree_applyReset l.agreeBesidesData _) (.inl rfl))
  have hr' : ¬ ResetDue t := by rwa [ResetDue, ← hline]
  cases l with
  | resting agree phase =>
    have agree' := hostAgree_setResets agree (resetLine s.resets).2
    obtain hp | hp := phase
    · have hp' : t.phase = Phase.idle := agree.phase.symm.trans hp
      cases ha : s.pending with
      | nil =>
        rw [step_waiting hr hp ha, step_waiting hr' hp' (agree.pending.symm.trans ha), ← hline]
        exact .next (.resting agree' (.inl hp))
      | cons a rest =>
        rw [step_host hr hp ha, step_host hr' hp' (agree.pending.symm.trans ha), ← hline]
        exact sameOutcome_host (hostAgree_setPending agree' rest) hp a
    · have hbusy : s.phase ≠ Phase.idle := by rw [hp]; decide
      rw [step_busy hr hbusy, step_busy hr' (agree.phase ▸ hbusy), ← agree.phase, hp, ← hline]
      exact sameOutcome_kexp agree'
  | encrypting pt left right agree =>
    obtain ⟨s', st⟩ := encryptStep_of_inv left hr
    obtain ⟨t', st'⟩ := encryptStep_of_inv right hr'
    rw [st.runs, st'.runs]
    exact .next (lockstep_encryptStep agree st st')

/-- The same of a run of any length. -/
theorem sameOutcome_run (n : Nat) (l : Lockstep s t) :
    SameOutcome Lockstep (Host.Core.run core n s) (Host.Core.run core n t) := by
  induction n generalizing s t with
  | zero => exact .next l
  | succ n ih =>
    have hstep : SameOutcome Lockstep (core.step s) (core.step t) := sameOutcome_step l
    simp only [Host.Core.run]
    generalize core.step s = left at hstep ⊢
    generalize core.step t = right at hstep ⊢
    cases hstep with
    | next l' => exact ih l'
    | fault f => exact .fault f
    | refused f => exact .refused f

end

/-- Settles O59: two idle cores that agree are in lockstep, and cores in lockstep have given the same answers. -/
theorem hostSeesNoMasks : Obligations.HostSeesNoMasks := by
  intro n s t agree hp
  have hrun := sameOutcome_run n (.resting agree (.inl hp))
  generalize Host.Core.run core n s = left at hrun ⊢
  generalize Host.Core.run core n t = right at hrun ⊢
  cases hrun with
  | next l =>
    have agree' := l.agreeBesidesData
    exact ⟨agree'.answers, agree'.phase, agree'.round, agree'.pending⟩
  | fault f => rfl
  | refused f => rfl

end Sys2Proof.Machine

/-! ### The key schedule's recurrence, the tables and the change of domain (R91, R98, R99, R110, R113, R127-R133) -/

namespace Sys2Proof.Machine

open Sys2Proof.Safety

/-! #### The key schedule (R110, R113) -/

/-- Column `c` of a block of the table is a word of R111. -/
theorem column_keyExpand (key : Block) {r : Nat} (hr : r < 11) (c : Fin 4) :
    column (keyAt (keyExpand key) r) c = wordOf (keyWords key) (4 * r + c.val) := by
  ext n hn : 1
  rw [getElem_column, keyAt_eq_getElem _ hr]
  exact stateAt_keyExpand key ⟨r, hr⟩ ⟨n, hn⟩ c

theorem block_ext_column {s t : Block} (h : ∀ j : Fin 4, column s j = column t j) : s = t :=
  block_ext fun i j => by
    rw [← getElem_column s j i.val i.isLt, ← getElem_column t j i.val i.isLt, h j]

/-- RK[0] is the key (R111). -/
theorem keyAt_keyExpand_zero (key : Block) : keyAt (keyExpand key) 0 = key :=
  block_ext_column fun j => by rw [column_keyExpand key (by decide), ← keyWords_key key j, Nat.mul_zero, Nat.zero_add]

theorem column_ofRowsCols (w : Vector Quad 4) (j : Fin 4) : column (ofRowsCols fun i j => w[j][i]) j = w[j] := by
  ext n hn : 1
  rw [getElem_column, stateAt_ofRowsCols]
  rfl

/-- R113: the first word of a block takes the temporary of R111. -/
theorem column_nextRoundKey_zero (c : Byte) (b : Block) :
    column (nextRoundKey c b) 0 = xorQuad (column b 0) (xorQuad (subWord (rotWord (column b 3))) #v[c, 0, 0, 0]) :=
  column_ofRowsCols _ 0

/-- R113: each other word takes the word before it. -/
theorem column_nextRoundKey_succ (c : Byte) (b : Block) (j : Fin 3) :
    column (nextRoundKey c b) j.succ = xorQuad (column b j.succ) (column (nextRoundKey c b) j.castSucc) := by
  match j with
  | 0 | 1 | 2 => rw [nextRoundKey, column_ofRowsCols, column_ofRowsCols]; rfl

/-- The first word of a later block, by R111's recurrence. -/
theorem column_keyExpand_zero (key : Block) {r : Nat} (hr : r < 10) :
    column (keyAt (keyExpand key) (r + 1)) 0 =
      xorQuad (column (keyAt (keyExpand key) r) 0)
        (xorQuad (subWord (rotWord (column (keyAt (keyExpand key) r) 3))) #v[rcon (r + 1), 0, 0, 0]) := by
  have hword := keyWords_rec key (4 * (r + 1)) (by omega) (by omega)
  have hmod : 4 * (r + 1) % 4 = 0 := Nat.mul_mod_right 4 (r + 1)
  have hdiv : 4 * (r + 1) / 4 = r + 1 := Nat.mul_div_cancel_left (r + 1) (by decide)
  rw [scheduleTemp, if_pos hmod, hdiv] at hword
  rw [column_keyExpand key (Nat.succ_lt_succ hr), column_keyExpand key (Nat.lt_succ_of_lt hr),
    column_keyExpand key (Nat.lt_succ_of_lt hr)]
  exact hword

/-- The other words of a later block, by R111's recurrence. -/
theorem column_keyExpand_succ (key : Block) {r : Nat} (hr : r < 10) (j : Fin 3) :
    column (keyAt (keyExpand key) (r + 1)) j.succ =
      xorQuad (column (keyAt (keyExpand key) r) j.succ) (column (keyAt (keyExpand key) (r + 1)) j.castSucc) := by
  have hj := j.isLt
  have hword := keyWords_rec key (4 * (r + 1) + (j.val + 1)) (by omega) (by omega)
  have hmod : (4 * (r + 1) + (j.val + 1)) % 4 ≠ 0 := by omega
  rw [scheduleTemp_of_mod_ne_zero hmod, show 4 * (r + 1) + (j.val + 1) - 4 = 4 * r + (j.val + 1) by omega,
    show 4 * (r + 1) + (j.val + 1) - 1 = 4 * (r + 1) + j.val by omega] at hword
  rw [column_keyExpand key (Nat.succ_lt_succ hr), column_keyExpand key (Nat.succ_lt_succ hr),
    column_keyExpand key (Nat.lt_succ_of_lt hr)]
  exact hword

/-- R113: each later block is made from the block before it and the round constant alone. -/
theorem keyAt_keyExpand_succ (key : Block) {r : Nat} (hr : r < 10) :
    keyAt (keyExpand key) (r + 1) = nextRoundKey (rcon (r + 1)) (keyAt (keyExpand key) r) := by
  refine block_ext_column fun j => ?_
  induction j using Fin.induction with
  | zero => rw [column_keyExpand_zero key hr, column_nextRoundKey_zero]
  | succ j ih => rw [column_keyExpand_succ key hr, column_nextRoundKey_succ, ih]

/-- R110: the round constants are the powers of 2. -/
theorem rcon_succ : ∀ t, 1 ≤ t → t < 10 → rcon (t + 1) = gmul 2 (rcon t) := by
  intro t h1 h10
  interval_cases t <;> decide

/-- Settles O26: the words of R111, four to a block, and the table of round constants. -/
theorem keyScheduleRecurrence : Obligations.KeyScheduleRecurrence :=
  ⟨fun key => ⟨keyAt_keyExpand_zero key, fun _ hr => keyAt_keyExpand_succ key hr⟩, rfl, rcon_succ⟩

/-! #### The substitution table (R91, R127, R129) -/

/-- The inverse of R91's affine transform, with its constant. -/
def affineInverse (y : Byte) : Byte := y.rotateLeft 1 ^^^ y.rotateLeft 3 ^^^ y.rotateLeft 6 ^^^ 0x05

/-- R91's construction, entry by entry of the printed table. -/
theorem sbox_construction (x : Byte) :
    (if x = 0 then affineInverse (sbox x) = 0 else gmul x (affineInverse (sbox x)) = 1) ∧
    sbox x = affineInverse (sbox x) ^^^ (affineInverse (sbox x)).rotateLeft 1 ^^^
      (affineInverse (sbox x)).rotateLeft 2 ^^^ (affineInverse (sbox x)).rotateLeft 3 ^^^
      (affineInverse (sbox x)).rotateLeft 4 ^^^ 0x63 := by
  revert x
  decide +kernel

/-- Settles O27: the byte is read back from the entry by the inverse of the affine transform. -/
theorem sboxIsAffineInverse : Obligations.SboxIsAffineInverse :=
  fun x => ⟨affineInverse (sbox x), sbox_construction x⟩

/-- A store of R127's loop, read back. -/
theorem smAt_storeSM (m4 m5 : Byte) (sm : SubTable) (x y : Byte) :
    smAt (storeSM m4 m5 sm x) y = if y ^^^ m4 = x then sbox (y ^^^ m4) ^^^ m5 else smAt sm y := by
  have hindex : (x ^^^ m4).toNat = y.toNat ↔ y ^^^ m4 = x := by
    rw [BitVec.toNat_inj]
    constructor
    · rintro rfl
      rw [BitVec.xor_assoc, BitVec.xor_self, BitVec.xor_zero]
    · rintro rfl
      rw [BitVec.xor_assoc, BitVec.xor_self, BitVec.xor_zero]
  rw [smAt, storeSM, Vector.getElem_set, if_congr hindex rfl rfl]
  split
  case isTrue h => rw [h]
  case isFalse => rfl

/-- R127's loop: the entries whose byte it has taken hold R126's value, the others are as they were. -/
theorem smAt_buildSMLoop (m4 m5 : Byte) (order : List Byte) (sm : SubTable) (y : Byte) :
    smAt (buildSMLoop m4 m5 order sm) y = if y ^^^ m4 ∈ order then sbox (y ^^^ m4) ^^^ m5 else smAt sm y := by
  induction order generalizing sm with
  | nil => rfl
  | cons x order ih =>
    rw [buildSMLoop, List.foldl_cons]
    refine (ih _).trans ?_
    rw [smAt_storeSM]
    by_cases hmem : y ^^^ m4 ∈ order
    · rw [if_pos hmem, if_pos (List.mem_cons_of_mem x hmem)]
    · rw [if_neg hmem]
      simp [hmem]

theorem mem_allBytes (x : Byte) : x ∈ allBytes :=
  List.mem_map.mpr ⟨x.toNat, List.mem_range.mpr x.isLt, by simp⟩

/-- Inversion in the field undoes itself, so the affine transform undone, an inversion and the affine transform undone
again lead back from an entry to its index. -/
theorem sbox_leftInverse : Function.LeftInverse (fun y => affineInverse (sbox (affineInverse y))) sbox := by
  rw [Function.LeftInverse]
  decide +kernel

/-- R129: the masks permute the indices and the entries. -/
theorem smAt_buildSM_injective (m4 m5 : Byte) : Function.Injective (smAt (buildSM m4 m5)) := by
  intro x y h
  rw [smAt_buildSM, smAt_buildSM, BitVec.xor_left_inj] at h
  exact (BitVec.xor_left_inj m4).mp (sbox_leftInverse.injective h)

/-- Settles O30: every entry's byte is among the 256 that the loop takes; and an injective table of bytes is a
bijection. -/
theorem tableBuilderLoop : Obligations.TableBuilderLoop := by
  refine ⟨fun m4 m5 order sm hperm => eq_buildSM fun y => ?_, fun m4 m5 => ?_⟩
  · rw [smAt_buildSMLoop, if_pos (hperm.mem_iff.mpr (mem_allBytes _))]
  · exact Finite.injective_iff_bijective.mp (smAt_buildSM_injective m4 m5)

/-! #### Changes of domain (R98, R99, R130-R133) -/

/-- Settles O28, by the linearity of column mixing and by the rows that ShiftRows keeps. -/
theorem domainsUnderMixAndShift : Obligations.DomainsUnderMixAndShift :=
  ⟨mixCol_xorQuad, fun _ _ _ hm h => inDomain_mixColumns hm h, fun _ _ _ _ h => inDomain_shiftRows h⟩

/-- Settles O29, byte by byte. -/
theorem remaskMovesDomains : Obligations.RemaskMovesDomains := by
  intro s v a b
  refine ⟨stateAt_remaskState s a b, block_ext fun i j => ?_, block_ext fun i j => ?_, block_ext fun i j => ?_⟩
  · rw [stateAt_remaskState, stateAt_remaskState, BitVec.xor_assoc, BitVec.xor_self, BitVec.xor_zero]
  · rw [stateAt_remaskState, stateAt_remaskState, BitVec.xor_comm b[i]]
  · rw [stateAt_remaskState, stateAt_maskedBy, stateAt_maskedBy]
    exact xor_change _ _ _

/-! #### Unlisted pairs (R162) -/

theorem nextPhase_arkDecoy_unlisted : ∀ r : BitVec 4, 10 ≤ r → nextPhase Phase.arkDecoy r = none := by decide

theorem nextPhase_ark_unlisted : ∀ r : BitVec 4, 10 ≤ r → nextPhase Phase.ark r = none := by decide

theorem nextPhase_shift_unlisted : ∀ r : BitVec 4, 11 ≤ r → nextPhase Phase.shift r = none := by decide

theorem microOp_unlisted {p : BitVec 5} {s : State} (effect : State → State) (h : nextPhase p s.round = none) :
    microOp p effect s = .fault (.reservedPhase p s.round) := by
  rw [microOp, h]

/-- Settles O49: a key addition faults without a round key, and all three fault where `Next` lists no pair. -/
theorem unlistedPairsFault : Obligations.UnlistedPairsFault := by
  intro s
  refine ⟨fun h => ⟨?_, ?_⟩, fun h => ?_⟩
  · rw [exec, execArkDecoy]
    split
    · exact microOp_unlisted _ (nextPhase_arkDecoy_unlisted _ h)
    · rfl
  · rw [exec, execArk]
    split
    · exact microOp_unlisted _ (nextPhase_ark_unlisted _ h)
    · rfl
  · rw [exec, execShift]
    exact microOp_unlisted _ (nextPhase_shift_unlisted _ h)

end Sys2Proof.Machine
